-- ==== Sys2Proof/Word.lean ====
section
/-! DEFINITION. The word types of GPE: bytes of DMEM, 16-bit halves, 32-bit registers, offsets of the host window. -/

namespace Sys2Proof

/-- A byte, 8 bits, unsigned (00_scope.md R7). -/
abbrev Byte := BitVec 8

/-- A 16-bit field: addresses, lengths, checksums, header fields. -/
abbrev Half := BitVec 16

/-- A 32-bit host-visible register or command word (10_state.md R23, 30_encoding.md R80). -/
abbrev Word := BitVec 32

/-- A byte offset in the 8 KiB host window 0x0000 .. 0x1FFF (20_memory.md R60): 13 bits, so that every
value names an offset of the window and none lies outside it (assumption log 11). -/
abbrev WinOff := BitVec 13

end Sys2Proof
end

