-- ==== Sys2Proof/Config.lean ====
section
/-! DEFINITION. The parameters of 00_scope.md R6 as named constants, the parameters the spec leaves OPEN, and the free
values the spec leaves unspecified (opaque constants without a body: nothing can evaluate them). -/

namespace Sys2Proof.Config

/-- REG_WIDTH, the bits of a host-visible register and of every access to one (R6, 10_state.md R23, 20_memory.md R62). -/
abbrev regWidth : Nat := 32
/-- ADDR_BITS, the width of the ADDR_A, ADDR_D and LEN_A fields (R6, 10_state.md R28 to R30). -/
abbrev addrBits : Nat := 16
/-- DMEM_SIZE, bytes of data memory (R6, 10_state.md R50). -/
abbrev dmemSize : Nat := 2048
/-- KEY_MAX, the longest legal key (R6, 10_state.md R41). -/
abbrev keyMax : Nat := 16
/-- NDESC_MAX, the most descriptors PARSE accepts (R6, 10_state.md R43). -/
abbrev ndescMax : Nat := 64
/-- REC_BASE, where the record starts in the deobfuscated body (R6, 10_state.md R46). -/
abbrev recBase : Nat := 71
/-- PAD_LEN, the record's padding region; used only by a Host's descriptor layout (R6, 43_record_parser.md R154). -/
abbrev padLen : Nat := 12
/-- MIN_FRAME, the fewest bytes DECODE_HDR accepts (R6). -/
abbrev minFrame : Nat := 9
/-- MAX_FRAME, the most bytes DECODE_HDR accepts (R6). -/
abbrev maxFrame : Nat := 300
/-- The least well-formed declaredLength (R6, 41_frame_decoder.md R123). -/
abbrev lenWfMin : Nat := 2
/-- The greatest well-formed declaredLength (R6, 41_frame_decoder.md R123). -/
abbrev lenWfMax : Nat := 293
/-- CRC_POLY (R6, 40_checksum.md R100). -/
def crcPoly : Half := 0xA001#16
/-- CRC_INIT (R6, 40_checksum.md R101). -/
def crcInit : Half := 0xFFFF#16
/-- The value the ID register reads (R6, 10_state.md R24). -/
def idValue : Word := 0x47504501#32
/-- The KEY_LEN reset value, the length of "Growatt" (R6, 10_state.md R41). -/
def keyLenReset : BitVec 5 := 7#5
/-- The KEY reset value, ASCII "Growatt" in KEY_W0 and KEY_W1 (R6, 10_state.md R42). -/
abbrev keyReset : Vector Word 4 := #v[0x47726F77#32, 0x61747400#32, 0#32, 0#32]
/-- The CRC_ORDER reset value 0: high byte, then low byte (R6, 10_state.md R31). -/
abbrev crcOrderReset : Bool := false
/-- The vendorMessageID "data" (41_frame_decoder.md R125; a named constant by 92_eei_decisions.md D39). -/
abbrev msgData : Byte := 0x04#8
/-- The vendorMessageID "data variant" (41_frame_decoder.md R125). -/
abbrev msgDataVariant : Byte := 0x03#8
/-- The vendorMessageID "ping" (41_frame_decoder.md R125). -/
abbrev msgPing : Byte := 0x16#8
/-- The vendorMessageID of a config block (41_frame_decoder.md R125). -/
abbrev msgConfigBlock : Byte := 0x50#8
/-- The vendorMessageID "identify" (41_frame_decoder.md R125). -/
abbrev msgIdentify : Byte := 0x19#8
/-- The declaredLength of a registers report, an announce and a config block (41_frame_decoder.md R125). -/
abbrev lenRegisters : Nat := 257
/-- The shorter declaredLength of a ping (41_frame_decoder.md R125). -/
abbrev lenPingShort : Nat := 12
/-- The longer declaredLength of a ping (41_frame_decoder.md R125). -/
abbrev lenPingLong : Nat := 32
/-- The protocolID VendorV5 (41_frame_decoder.md R124). -/
abbrev protoV5 : Half := 5#16
/-- The protocolID VendorV6 (41_frame_decoder.md R124). -/
abbrev protoV6 : Half := 6#16
/-- Offset of the first byte of the DMEM part of the host window (20_memory.md R61). -/
abbrev dmemWindow : Nat := 0x1000
/-- Size of the host window in bytes (20_memory.md R60). -/
abbrev windowSize : Nat := 0x2000

/-- The byte a never-written DMEM address reads as: `freeByte t k a` is the free choice for address a at the read
numbered k of the instance with tape t (70_reset_and_hazards.md R233, 93_implementation_defined.md U2; assumption logs 3
and 15). -/
opaque freeByte : Nat → Nat → Nat → Byte
/-- A word the spec leaves unspecified: `freeWord t k` is the draw numbered k of the instance with tape t
(93_implementation_defined.md U1, U3, U4; assumption logs 6 to 8 and 15). -/
opaque freeWord : Nat → Nat → Word

/-- N_INST - 1: the number of instances beyond the first is an OPEN parameter (R6, 60_exceptions.md R212). -/
opaque extraInstances : Nat
/-- N_INST, at least 1 (R6). -/
def nInst : Nat := extraInstances + 1
/-- GPE_BASE of each instance: an OPEN parameter (20_memory.md R72). -/
opaque gpeBase : Nat → Nat

end Sys2Proof.Config
end

