-- ==== Sys2Proof/Syntax.lean ====
section
/-! DEFINITION. The syntax of GPE: the fields of the command word, the eleven commands (one constructor a row of
spec/opcode_table.json), the names of the host window's registers, the Host's bus accesses and the Host assembly. -/

namespace Sys2Proof

/-- The fields of the one instruction format CMD32 (30_encoding.md R80). -/
structure Cmd32 where
  /-- OP, bits [7:0] -/
  op : Byte
  /-- C, bit [8] -/
  c : Bool
  /-- RES, bits [31:9] -/
  res : BitVec 23
deriving DecidableEq, Repr

/-- The commands (30_encoding.md R81). `c` is the continue bit of the three CRC-family commands (R83); the other
commands have no operand in the command word. -/
inductive Instr
  | nop
  | crc (c : Bool)
  | crcAppend (c : Bool)
  | crcVerify (c : Bool)
  | decodeHdr
  | classify
  | deobf
  | parse
  | buildHdr
  | buildAck
  | pingEcho
deriving DecidableEq, Repr

/-- Why a command word is illegal (30_encoding.md R83, R84, R85; 93_implementation_defined.md V1 to V3). -/
inductive Illegal
  /-- some bit of RES is set (R84) -/
  | reservedBits
  /-- the OP value is not in the opcode map (R85) -/
  | reservedOp
  /-- C = 1 on a command that does not take it (R83) -/
  | continueNotAllowed
deriving DecidableEq, Repr

/-- What a command word decodes to: exactly one of two things (30_encoding.md R90). -/
inductive Decoded
  | command (i : Instr)
  | illegal (why : Illegal)
deriving DecidableEq, Repr

/-- The registers of the host window (10_state.md R23). -/
inductive RegName
  | id | status | cmd | errcode | addrA | lenA | addrD | config
  | crcResult | outLen | bodyNeed | kind
  | hdrTid | hdrProto | hdrLen | hdrUnit | hdrMsgid
  | keyLen | ndesc | recSize | recBase | memSize
  | keyW (j : Fin 4)
  | desc (i : Fin 64)
  | recEntry (i : Fin 64)
  | tbl (i : Fin 256)
deriving DecidableEq, Repr

/-- How the Host may access a register (10_state.md R23). -/
inductive Access
  /-- RW: the Host reads and writes it -/
  | readWrite
  /-- RO: a Host write is ignored -/
  | readOnly
  /-- WO: a Host read returns 0 -/
  | writeOnly
deriving DecidableEq, Repr

/-- One Host bus access: the triple (offset, width, value) of 30_encoding.md R93, with no value for a read. A width other
than 32 or 8 bits is a bus misuse (20_memory.md R64) and can be written down here for that reason. -/
structure BusAccess where
  offset : WinOff
  width : Nat
  value : Option Word
deriving DecidableEq, Repr

/-- What the Host executes, one at a time: a bus access, a branch on one bit of the value last read, a jump, or the end
of the program (30_encoding.md R92). Targets are positions in the program. -/
inductive HostOp
  | bus (acc : BusAccess)
  | branchIf (bit : Nat) (on : Bool) (target : Nat)
  | jump (target : Nat)
  | halt
deriving DecidableEq, Repr

/-- A statement of the Host assembly (30_encoding.md R91, R92). Labels are numbered. -/
inductive AsmStmt
  | wr (r : RegName) (v : Word)
  | rd (r : RegName)
  | wb (a : BitVec 12) (v : Byte)
  | rb (a : BitVec 12)
  | cmd (i : Instr)
  | wait
  | run (i : Instr)
  | wbs (a : BitVec 12) (vs : List Byte)
  | waitReady
  | set (a n d : Option Word)
  | label (l : Nat)
  | brc (r : RegName) (bit : Nat) (l : Nat)
  | brs (r : RegName) (bit : Nat) (l : Nat)
  | jmp (l : Nat)
  | halt
deriving DecidableEq, Repr

end Sys2Proof
end

