-- ==== Sys2Proof/Machine/State.lean ====
section
/-! DEFINITION. The state of one GPE instance and its Host, the ways a step could stop, and the state after reset. -/

namespace Sys2Proof.Machine

/-- The model faults of 60_exceptions.md R210: conditions for which the spec defines no hardware behaviour. They are
RECORDED in the FAULTS set of State (10_state.md R51) and the step answers a next state, as R210 asks; no step of this
model answers `Host.Outcome.fault` (93_implementation_defined.md: no behaviour of GPE is treated as stuck). -/
inductive Fault
  /-- BUS_MISUSE: raised by a Host access of a wrong width or alignment (20_memory.md R64). Safe: it changes no other
  state of the instance, and a claim about a run must assume that FAULTS is empty (R210). -/
  | busMisuse
  /-- HOST_HAZARD: raised by a Host write to an RW register, to CMD or to DMEM while STATUS.BUSY = 1
  (70_reset_and_hazards.md R235). Safe: what was written and what the pending command does become free values. -/
  | hostHazard
deriving DecidableEq, Repr

/-- Refusals of a step. No arm of `exec` answers one: every command of the opcode table has its meaning. -/
inductive Refusal
  /-- An instruction that has no meaning yet; raised by no arm. Safe: the machine stops. -/
  | notModelled (mnemonic : String)
deriving DecidableEq, Repr

/-- MessageKind, in the source's order, which is the order of the KIND codes 0 .. 7 (10_state.md R32). -/
inductive MessageKind
  | unknown
  | registersReport
  | registersAck
  | ping
  | pingAck
  | announce
  | rawConfigBlock
  | identifyResponse
deriving DecidableEq, Repr

/-- The error codes a command can end with (60_exceptions.md R200), without NONE. -/
inductive ErrCode
  | frameTooShort
  | frameTooLong
  | unsupportedProtocol
  | truncatedRecord
  | badOpcode
  | badRange
  | badKey
  | overlap
  | badDesc
  | badLength
deriving DecidableEq, Repr

/-- Who moves next (10_state.md R20, 70_reset_and_hazards.md R231). -/
inductive Turn
  /-- the Host executes one statement of its program -/
  | host
  /-- the Engine takes its enabled step, if it has one -/
  | engine
  /-- the platform resets the instance -/
  | reset
deriving DecidableEq, Repr

/-- DMEM: the bytes written since reset, by address (10_state.md R50, R51). A byte is WRITTEN exactly when it is listed. -/
abbrev Memory := List Host.Cell

/-- The state of one GPE instance (10_state.md), then the model's own fields for its Host, its free values and whose turn
it is. -/
structure State where
  /-- INIT_DONE (R51), which STATUS.READY shows -/
  initDone : Bool
  /-- PENDING (R51): the command word of the last CMD write while STATUS.BUSY = 1, nothing otherwise -/
  pending : Option Word
  /-- STATUS.DONE (R25) -/
  done : Bool
  /-- STATUS.ERR (R25) -/
  err : Bool
  /-- STATUS.BODY_COMPLETE (R25) -/
  bodyComplete : Bool
  /-- STATUS.CRC_MATCH (R25) -/
  crcMatch : Bool
  /-- ERRCODE (R27) -/
  errcode : Byte
  /-- ADDR_A (R28) -/
  addrA : Half
  /-- LEN_A (R29) -/
  lenA : Half
  /-- ADDR_D (R30) -/
  addrD : Half
  /-- CONFIG.CRC_ORDER (R31): true is the low byte first -/
  crcOrder : Bool
  /-- KIND (R32) -/
  kind : MessageKind
  /-- CRC_RESULT (R33) -/
  crcResult : Half
  /-- OUT_LEN (R34) -/
  outLen : Half
  /-- BODY_NEED (R35) -/
  bodyNeed : BitVec 17
  /-- HDR_TID (R36) -/
  hdrTid : Half
  /-- HDR_PROTO (R37) -/
  hdrProto : Half
  /-- HDR_LEN (R38) -/
  hdrLen : Half
  /-- HDR_UNIT (R39) -/
  hdrUnit : Byte
  /-- HDR_MSGID (R40) -/
  hdrMsgid : Byte
  /-- KEY_LEN (R41) -/
  keyLen : BitVec 5
  /-- KEY_W0 .. KEY_W3 (R42) -/
  keyW : Vector Word 4
  /-- NDESC (R43) -/
  ndesc : BitVec 7
  /-- DESC[0..63] (R44): OFF in bits [15:0], W in bits [17:16] -/
  desc : Vector (BitVec 18) 64
  /-- REC[0..63] (R48) -/
  recs : Vector Word 64
  /-- TBL[0..255] (R49) -/
  tbl : Vector Half 256
  /-- DMEM and WRITTEN (R50, R51) -/
  dmem : Memory
  /-- BUS_MISUSE ∈ FAULTS (R51) -/
  faultBusMisuse : Bool
  /-- HOST_HAZARD ∈ FAULTS (R51) -/
  faultHostHazard : Bool
  /-- the model's own: a HOST_HAZARD happened while the pending command waits (assumption log 6) -/
  tainted : Bool
  /-- the model's own: how many fresh draws there have been (assumption log 3) -/
  draws : Nat
  /-- the model's own: which tape of free values the instance draws from, so that two instances draw independently
  (assumption log 15) -/
  tape : Nat
  /-- the model's own: the Host's program (assumption log 2) -/
  hostProg : List HostOp
  /-- the model's own: the Host's place in its program -/
  hostPc : Nat
  /-- the model's own: the value the Host's last read returned -/
  readData : Word
  /-- the model's own: who moves next (assumption log 1) -/
  turns : List Turn
deriving DecidableEq, Repr

/-- The state after reset (70_reset_and_hazards.md R230), with no Host program and no turn laid down. TBL, whose value
is unspecified until READY = 1 (10_state.md R49), is 0 here and cannot be read (assumption log 4). -/
def State.reset : State where
  initDone := false
  pending := none
  done := false
  err := false
  bodyComplete := false
  crcMatch := false
  errcode := 0x00#8
  addrA := 0#16
  lenA := 0#16
  addrD := 0#16
  crcOrder := Config.crcOrderReset
  kind := .unknown
  crcResult := 0xFFFF#16
  outLen := 0#16
  bodyNeed := 0#17
  hdrTid := 0#16
  hdrProto := 0#16
  hdrLen := 0#16
  hdrUnit := 0#8
  hdrMsgid := 0#8
  keyLen := Config.keyLenReset
  keyW := Config.keyReset
  ndesc := 0#7
  desc := Vector.replicate 64 0#18
  recs := Vector.replicate 64 0#32
  tbl := Vector.replicate 256 0#16
  dmem := []
  faultBusMisuse := false
  faultHostHazard := false
  tainted := false
  draws := 0
  tape := 0
  hostProg := []
  hostPc := 0
  readData := 0#32
  turns := []

end Sys2Proof.Machine
end

