-- ==== Sys2Proof/Machine/Ops.lean ====
section
/-! DEFINITION. The named operations over DMEM and the registers: byte order, reading and writing DMEM, the issue of a
command, its completion with and without an error, the model faults, and the reset of an instance. -/

namespace Sys2Proof.Machine

/-! ### Arrays and byte order -/

/-- The array whose entry i is `f i`. -/
def tabulate {α : Type} (n : Nat) (f : Nat → α) : Vector α n :=
  ⟨((List.range n).map f).toArray, by simp⟩

/-- The high byte of a 16-bit value (00_scope.md R12). -/
def hiByte (v : Half) : Byte := v.extractLsb' 8 8

/-- The low byte of a 16-bit value (00_scope.md R12). -/
def loByte (v : Half) : Byte := v.extractLsb' 0 8

/-- `bytes16(v)`: the two bytes of a 16-bit value, most significant first (00_scope.md R9, 20_memory.md R65). -/
def bytes16 (v : Half) : List Byte := [hiByte v, loByte v]

/-- Byte i of a sequence; the callers keep i inside it. -/
def byteAt (bs : List Byte) (i : Nat) : Byte := bs.getD i 0#8

/-- `be16(s, i)` (00_scope.md R9). -/
def be16 (bs : List Byte) (i : Nat) : Nat := (byteAt bs i).toNat * 256 + (byteAt bs (i + 1)).toNat

/-- `be32(s, i)` (00_scope.md R9). -/
def be32 (bs : List Byte) (i : Nat) : Nat := be16 bs i * 65536 + be16 bs (i + 2)

/-! ### DMEM -/

/-- The byte listed at an address, if it has been written since reset (10_state.md R51: WRITTEN). -/
def Memory.lookup : Memory → Nat → Option Byte
  | [], _ => none
  | (k, b) :: rest, a => if k = a then some b else Memory.lookup rest a

/-- WRITTEN of an address (10_state.md R51). -/
def Memory.written (m : Memory) (a : Nat) : Bool := (m.lookup a).isSome

/-- Where a read takes its free choices from: the instance's tape, and the number of the read on it (assumption logs 3 and
15). -/
structure Draw where
  tape : Nat
  number : Nat
deriving DecidableEq, Repr

/-- The draw `k` places after those already made (assumption log 3). -/
def State.draw (s : State) (k : Nat) : Draw := { tape := s.tape, number := s.draws + k }

/-- What an address reads as at a given draw: the byte last written, or a fresh free choice where none was
(70_reset_and_hazards.md R233). -/
def Memory.readByte (m : Memory) (draw : Draw) (a : Nat) : Byte :=
  (m.lookup a).getD (Config.freeByte draw.tape draw.number a)

/-- A byte written at an address, which makes it WRITTEN (20_memory.md R62, R68); the list stays in rising order. -/
def Memory.store : Memory → Nat → Byte → Memory
  | [], a, v => [(a, v)]
  | (k, b) :: rest, a, v =>
    if a < k then (a, v) :: (k, b) :: rest
    else if a = k then (a, v) :: rest
    else (k, b) :: Memory.store rest a v

/-- The canonical form: addresses strictly rising, each inside DMEM. No entry is ever redundant, since an unlisted address
reads as no fixed byte. -/
def Memory.wf (m : Memory) : Bool :=
  decide ((m.map Prod.fst).Pairwise (· < ·)) && m.all fun c => decide (c.1 < Config.dmemSize)

/-- `MemWrite(a, len(bs), bs)` (00_scope.md R9). -/
def Memory.storeBytes : Memory → Nat → List Byte → Memory
  | m, _, [] => m
  | m, a, b :: bs => Memory.storeBytes (m.store a b) (a + 1) bs

/-- `MemRead(a, n)` at a given draw (00_scope.md R9). -/
def Memory.readBytes (m : Memory) (draw : Draw) (a n : Nat) : List Byte :=
  (List.range n).map fun i => m.readByte draw (a + i)

/-- `inRange(a, n)`, without wrap-around (00_scope.md R9). -/
def inRange (a n : Nat) : Bool := decide (a + n ≤ Config.dmemSize)

/-- `overlaps(a, n, d, m)`: the two byte ranges share an address (00_scope.md R9). -/
def overlaps (a n d m : Nat) : Bool := decide (0 < n ∧ 0 < m ∧ a < d + m ∧ d < a + n)

/-! ### Codes -/

/-- The KIND code of a MessageKind (10_state.md R32). -/
def MessageKind.code : MessageKind → BitVec 3
  | .unknown => 0#3
  | .registersReport => 1#3
  | .registersAck => 2#3
  | .ping => 3#3
  | .pingAck => 4#3
  | .announce => 5#3
  | .rawConfigBlock => 6#3
  | .identifyResponse => 7#3

/-- The MessageKind of a KIND code (10_state.md R32). -/
def MessageKind.ofCode (c : BitVec 3) : MessageKind :=
  if c = 0#3 then .unknown
  else if c = 1#3 then .registersReport
  else if c = 2#3 then .registersAck
  else if c = 3#3 then .ping
  else if c = 4#3 then .pingAck
  else if c = 5#3 then .announce
  else if c = 6#3 then .rawConfigBlock
  else .identifyResponse

/-- The value ERRCODE takes for an error (60_exceptions.md R200). -/
def ErrCode.code : ErrCode → Byte
  | .frameTooShort => 0x01#8
  | .frameTooLong => 0x02#8
  | .unsupportedProtocol => 0x03#8
  | .truncatedRecord => 0x04#8
  | .badOpcode => 0x10#8
  | .badRange => 0x11#8
  | .badKey => 0x12#8
  | .overlap => 0x13#8
  | .badDesc => 0x14#8
  | .badLength => 0x15#8

/-! ### The life of a command -/

/-- What a command leads to before it is applied: the state with its staged writes, or the error it raises
(00_scope.md R10, R11). -/
abbrev Staged := Except ErrCode State

/-- STATUS.BUSY: a command is pending or executing (10_state.md R25, R51). -/
def State.busy (s : State) : Bool := s.pending.isSome

/-- Issue of a command word: what a CMD write does at once (45_control.md R190). -/
def issue (w : Word) (s : State) : State :=
  { s with pending := some w, done := false, err := false, errcode := 0x00#8 }

/-- TAKING AN ERROR, the one exception GPE has: exactly ERRCODE and STATUS change (60_exceptions.md R201,
45_control.md R192). There is no return from it (60_exceptions.md R205): the next command issued clears it. -/
def raiseError (e : ErrCode) (s : State) : State :=
  { s with errcode := e.code, err := true, pending := none, done := true }

/-- Completion without error, over the state that holds the command's staged writes (45_control.md R192). -/
def completeOk (s : State) : State :=
  { s with errcode := 0x00#8, err := false, pending := none, done := true }

/-- Completion of a command that started in state `s`: an error discards every staged write (45_control.md R192,
60_exceptions.md R201). -/
def complete (s : State) : Staged → State
  | .ok t => completeOk t
  | .error e => raiseError e s

/-- The outcome of a command: it always completes (93_implementation_defined.md). -/
def finish (s : State) (r : Staged) : Host.Outcome State Fault Refusal := .next (complete s r)

/-- The staged writes of a command that passes a check, or the error the check raises (60_exceptions.md R202: the first
failing check decides). -/
def require (ok : Bool) (e : ErrCode) (r : Staged) : Staged := if ok then r else .error e

/-! ### Model faults, free results, reset -/

/-- A model fault enters FAULTS and never leaves it (60_exceptions.md R210). -/
def recordFault (f : Fault) (s : State) : State :=
  match f with
  | .busMisuse => { s with faultBusMisuse := true }
  | .hostHazard => { s with faultHostHazard := true }

/-- What a HOST_HAZARD leaves: the fault in FAULTS and the pending command's result undefined
(70_reset_and_hazards.md R235; assumption log 6). -/
def hazard (s : State) : State :=
  { recordFault .hostHazard s with tainted := true, draws := s.draws + 1 }

/-- A free value of at most 32 bits, by its number after the draws already made (assumption log 6). -/
def freshWord (s : State) (k : Nat) : Word := Config.freeWord (s.draw k).tape (s.draw k).number

/-- Completion of a command whose result a HOST_HAZARD made undefined: everything some command may write is free, and no
DMEM byte is known any more (70_reset_and_hazards.md R235; assumption log 6). -/
def completeTainted (s : State) : State :=
  let code : Byte := (freshWord s 0).setWidth 8
  { s with
    errcode := code
    err := code != 0x00#8
    crcResult := (freshWord s 1).setWidth 16
    outLen := (freshWord s 2).setWidth 16
    bodyNeed := (freshWord s 3).setWidth 17
    kind := MessageKind.ofCode ((freshWord s 4).setWidth 3)
    hdrTid := (freshWord s 5).setWidth 16
    hdrProto := (freshWord s 6).setWidth 16
    hdrLen := (freshWord s 7).setWidth 16
    hdrUnit := (freshWord s 8).setWidth 8
    hdrMsgid := (freshWord s 9).setWidth 8
    bodyComplete := (freshWord s 10).getLsbD 0
    crcMatch := (freshWord s 11).getLsbD 0
    recs := tabulate 64 fun i => freshWord s (12 + i)
    dmem := []
    draws := s.draws + 76
    tainted := false
    pending := none
    done := true }

/-- The platform's reset (70_reset_and_hazards.md R230, R231): the instance is as after reset; the Host, whose state is no
part of the instance, and the instance's tape and the number of the next fresh draw go on (assumption logs 9 and 15). -/
def platformReset (s : State) : State :=
  { State.reset with
    draws := s.draws
    tape := s.tape
    hostProg := s.hostProg
    hostPc := s.hostPc
    readData := s.readData
    turns := s.turns }

end Sys2Proof.Machine
end

