-- ==== Sys2Proof/Machine/Operands.lean ====
section
/-! DEFINITION. Operand assembly (30_encoding.md R87): the operand registers as exact natural numbers, the key bytes, the
descriptor fields, and the header image the builders write. -/

namespace Sys2Proof.Machine

/-- ADDR_A, zero-extended (30_encoding.md R87). -/
def State.srcAddr (s : State) : Nat := s.addrA.toNat

/-- LEN_A, zero-extended. -/
def State.srcLen (s : State) : Nat := s.lenA.toNat

/-- ADDR_D, zero-extended. -/
def State.dstAddr (s : State) : Nat := s.addrD.toNat

/-- `MemRead(a, n)` by a command, as its k-th read of DMEM: each has a draw number of its own (assumption log 3). -/
def memRead (s : State) (k a n : Nat) : List Byte := s.dmem.readBytes (s.draw k) a n

/-- KEY[i], byte i of the key, for i < 16: the words are big-endian (10_state.md R42). -/
def keyByte (s : State) (i : Nat) : Byte :=
  (s.keyW.toList.getD (i / 4) 0#32).extractLsb' (8 * (3 - i % 4)) 8

/-- DESC[i].OFF (10_state.md R44). -/
def descOff (d : BitVec 18) : Nat := (d.extractLsb' 0 16).toNat

/-- DESC[i].W (10_state.md R44). -/
def descW (d : BitVec 18) : Nat := (d.extractLsb' 16 2).toNat

/-- `width(Wc)` in bytes (43_record_parser.md R151). -/
def fieldWidth (wc : Nat) : Nat := if wc = 1 then 2 else if wc = 2 then 4 else 0

/-- W is one of the two legal codes (43_record_parser.md R152). -/
def descLegal (d : BitVec 18) : Bool := decide (descW d = 1 ∨ descW d = 2)

/-- The end of a field, counted from the record start (43_record_parser.md R151). -/
def fieldEnd (d : BitVec 18) : Nat := descOff d + fieldWidth (descW d)

/-- DESC[0 .. min(NDESC, 64) - 1], the descriptors in use (10_state.md R43). -/
def State.descInUse (s : State) : List (BitVec 18) := s.desc.toList.take (min s.ndesc.toNat Config.ndescMax)

/-- REC_SIZE, the end of the furthest field (43_record_parser.md R151). -/
def State.recSize (s : State) : Nat := (s.descInUse.map fieldEnd).foldl max 0

/-- `hdrImage(L)`, the 8 header bytes of a reply (44_frame_builder.md R170). -/
def hdrImage (s : State) (len : Half) : List Byte :=
  bytes16 s.hdrTid ++ bytes16 s.hdrProto ++ bytes16 len ++ [s.hdrUnit, s.hdrMsgid]

end Sys2Proof.Machine
end

