-- ==== Sys2Proof/Machine/Flags.lean ====
section
/-! DEFINITION. The flags: STATUS.LEN_WF, the two results DECODE_HDR and CRC_VERIFY leave in STATUS, and the STATUS word. -/

namespace Sys2Proof.Machine

/-- STATUS.LEN_WF, combinational from HDR_LEN (41_frame_decoder.md R123). -/
def State.lenWf (s : State) : Bool :=
  decide (Config.lenWfMin ≤ s.hdrLen.toNat ∧ s.hdrLen.toNat ≤ Config.lenWfMax)

/-- STATUS.BODY_COMPLETE for declaredLength `len` and `n` bytes in the buffer (41_frame_decoder.md R121, R122). -/
def bodyCompleteFlag (len n : Nat) : Bool := decide (6 + len ≤ n)

/-- BODY_NEED, max(0, 6 + len - n): natural subtraction stops at 0 (41_frame_decoder.md R122). -/
def bodyNeedCount (len n : Nat) : Nat := 6 + len - n

/-- STATUS.CRC_MATCH: the two bytes found are the two bytes expected (40_checksum.md R105). -/
def crcMatchFlag (found expected : List Byte) : Bool := found == expected

/-- The STATUS register (10_state.md R25): bit 0 READY, 1 BUSY, 2 DONE, 3 ERR, 4 LEN_WF, 5 BODY_COMPLETE, 6 CRC_MATCH, the
others 0. -/
def statusWord (s : State) : Word :=
  (BitVec.ofBool s.crcMatch ++ BitVec.ofBool s.bodyComplete ++ BitVec.ofBool s.lenWf ++ BitVec.ofBool s.err
    ++ BitVec.ofBool s.done ++ BitVec.ofBool s.busy ++ BitVec.ofBool s.initDone : BitVec 7).setWidth 32

end Sys2Proof.Machine
end

