-- ==== Sys2Proof/Machine/Checksum.lean ====
section
/-! DEFINITION. The checksum engine (40_checksum.md): the table build, the checksum function, and CRC, CRC_APPEND and
CRC_VERIFY. -/

namespace Sys2Proof.Machine

/-- One turn of the table-build loop (40_checksum.md R100): test bit 0, shift right, XOR the polynomial when it was 1. -/
def crcShift (c : Half) : Half :=
  if c.getLsbD 0 then (c >>> 1) ^^^ Config.crcPoly else c >>> 1

/-- `k` turns of the loop. -/
def crcShifts : Nat → Half → Half
  | 0, c => c
  | k + 1, c => crcShifts k (crcShift c)

/-- TBL as the table-build step leaves it (40_checksum.md R100). -/
def crcTable : Vector Half 256 := tabulate 256 fun v => crcShifts 8 (BitVec.ofNat 16 v)

/-- The table-build step of the Engine (40_checksum.md R100, 70_reset_and_hazards.md R232). -/
def buildTable (s : State) : State := { s with tbl := crcTable, initDone := true }

/-- One byte of the checksum: acc <- (acc >> 8) ^ TBL[(acc ^ b) & 0xFF] (40_checksum.md R101). -/
def crcByte (t : Vector Half 256) (acc : Half) (b : Byte) : Half :=
  (acc >>> 8) ^^^ t[((acc ^^^ b.setWidth 16).setWidth 8).toNat]

/-- `Crc16(seed, s)` (40_checksum.md R101). -/
def crc16 (t : Vector Half 256) (seed : Half) (bs : List Byte) : Half := bs.foldl (crcByte t) seed

/-- `crcBytes(c)`: the pair a checksum occupies in memory, in the order of CONFIG.CRC_ORDER (40_checksum.md R102). -/
def crcBytes (order : Bool) (c : Half) : List Byte := if order then [loByte c, hiByte c] else [hiByte c, loByte c]

/-- The seed of a CRC-family command (30_encoding.md R83). -/
def crcSeed (c : Bool) (s : State) : Half := if c then s.crcResult else Config.crcInit

/-- The checksum of the source range, as the command's first read of DMEM (40_checksum.md R103 to R105). -/
def rangeCrc (c : Bool) (s : State) : Half := crc16 s.tbl (crcSeed c s) (memRead s 0 s.srcAddr s.srcLen)

/-- CRC (40_checksum.md R103). -/
def execCrc (c : Bool) (s : State) : Host.Outcome State Fault Refusal :=
  finish s <|
    require (inRange s.srcAddr s.srcLen) .badRange <|
    .ok { s with crcResult := rangeCrc c s, draws := s.draws + 1 }

/-- CRC_APPEND (40_checksum.md R104). -/
def execCrcAppend (c : Bool) (s : State) : Host.Outcome State Fault Refusal :=
  finish s <|
    require (inRange s.srcAddr (s.srcLen + 2)) .badRange <|
    .ok { s with
      dmem := s.dmem.storeBytes (s.srcAddr + s.srcLen) (crcBytes s.crcOrder (rangeCrc c s))
      crcResult := rangeCrc c s
      draws := s.draws + 1 }

/-- CRC_VERIFY (40_checksum.md R105); a mismatch is no error. -/
def execCrcVerify (c : Bool) (s : State) : Host.Outcome State Fault Refusal :=
  finish s <|
    require (inRange s.srcAddr (s.srcLen + 2)) .badRange <|
    .ok { s with
      crcMatch := crcMatchFlag (memRead s 1 (s.srcAddr + s.srcLen) 2) (crcBytes s.crcOrder (rangeCrc c s))
      crcResult := rangeCrc c s
      draws := s.draws + 2 }

end Sys2Proof.Machine
end

