-- ==== Sys2Proof/Machine/Control.lean ====
section
/-! DEFINITION. NOP (45_control.md R193) and the end of an illegal command word (30_encoding.md R83 to R85, R90). -/

namespace Sys2Proof.Machine

/-- NOP: completes without error and does nothing else (45_control.md R193). -/
def execNop (s : State) : Host.Outcome State Fault Refusal := finish s (.ok s)

/-- An illegal command word ends the command with BAD_OPCODE (30_encoding.md R90, 60_exceptions.md R200). -/
def execIllegal (s : State) : Host.Outcome State Fault Refusal := finish s (.error .badOpcode)

end Sys2Proof.Machine
end

