-- ==== Sys2Proof/Machine/Deobfuscator.lean ====
section
/-! DEFINITION. The payload deobfuscator (42_deobfuscator.md): DEOBF. -/

namespace Sys2Proof.Machine

/-- t[i] = s[i] ^ KEY[i mod k], the key index counted from the first byte of the range (42_deobfuscator.md R140, R141). -/
def xorKey (s : State) (k : Nat) (bs : List Byte) : List Byte :=
  bs.mapIdx fun i b => b ^^^ keyByte s (i % k)

/-- DEOBF (42_deobfuscator.md R140). -/
def execDeobf (s : State) : Host.Outcome State Fault Refusal :=
  let n := s.srcLen
  let k := s.keyLen.toNat
  finish s <|
    require (decide (0 < k ∧ k ≤ Config.keyMax)) .badKey <|
    require (inRange s.srcAddr n) .badRange <|
    require (inRange s.dstAddr n) .badRange <|
    require (decide (s.dstAddr = s.srcAddr) || !overlaps s.srcAddr n s.dstAddr n) .overlap <|
    .ok { s with
      dmem := s.dmem.storeBytes s.dstAddr (xorKey s k (memRead s 0 s.srcAddr n))
      draws := s.draws + 1 }

end Sys2Proof.Machine
end

