-- ==== Sys2Proof/Machine/FrameBuilder.lean ====
section
/-! DEFINITION. The frame builder (44_frame_builder.md): BUILD_HDR, BUILD_ACK and PING_ECHO. -/

namespace Sys2Proof.Machine

/-- The destination `d .. d+m-1` of a builder does not touch its source range, unless the source already stands in place
behind the 8 header bytes (44_frame_builder.md R173, R174). -/
def replyFits (a n d m : Nat) : Bool := decide (d + 8 = a) || !overlaps a n d m

/-- BUILD_HDR (44_frame_builder.md R171): the length field is LEN_A as given. -/
def execBuildHdr (s : State) : Host.Outcome State Fault Refusal :=
  finish s <|
    require (inRange s.dstAddr 8) .badRange <|
    .ok { s with
      dmem := s.dmem.storeBytes s.dstAddr (hdrImage s s.lenA)
      outLen := 8#16 }

/-- Header and body of an acknowledgement, the bytes its checksum covers (44_frame_builder.md R173). -/
def ackFrame (s : State) : List Byte :=
  hdrImage s (BitVec.ofNat 16 (s.srcLen + 2)) ++ memRead s 0 s.srcAddr s.srcLen

/-- BUILD_ACK (44_frame_builder.md R173). -/
def execBuildAck (s : State) : Host.Outcome State Fault Refusal :=
  let n := s.srcLen
  let c := crc16 s.tbl Config.crcInit (ackFrame s)
  finish s <|
    require (inRange s.srcAddr n) .badRange <|
    require (inRange s.dstAddr (n + 10)) .badRange <|
    require (replyFits s.srcAddr n s.dstAddr (n + 10)) .overlap <|
    .ok { s with
      dmem := s.dmem.storeBytes s.dstAddr (ackFrame s ++ crcBytes s.crcOrder c)
      crcResult := c
      outLen := BitVec.ofNat 16 (n + 10)
      draws := s.draws + 1 }

/-- PING_ECHO (44_frame_builder.md R174): the payload length is HDR_LEN - 2, and LEN_A is not read. -/
def execPingEcho (s : State) : Host.Outcome State Fault Refusal :=
  let n := s.hdrLen.toNat - 2
  finish s <|
    require (decide (2 ≤ s.hdrLen.toNat)) .badLength <|
    require (inRange s.srcAddr n) .badRange <|
    require (inRange s.dstAddr (n + 8)) .badRange <|
    require (replyFits s.srcAddr n s.dstAddr (n + 8)) .overlap <|
    .ok { s with
      dmem := s.dmem.storeBytes s.dstAddr (hdrImage s s.hdrLen ++ memRead s 0 s.srcAddr n)
      outLen := BitVec.ofNat 16 (n + 8)
      draws := s.draws + 1 }

end Sys2Proof.Machine
end

