-- ==== Sys2Proof/Machine/FrameDecoder.lean ====
section
/-! DEFINITION. The frame decoder and message classifier (41_frame_decoder.md): DECODE_HDR and CLASSIFY. -/

namespace Sys2Proof.Machine

/-- DECODE_HDR (41_frame_decoder.md R120, R121): the length checks come before the range check, and only the first eight
bytes are read. -/
def execDecodeHdr (s : State) : Host.Outcome State Fault Refusal :=
  let f := memRead s 0 s.srcAddr 8
  let len := be16 f 4
  finish s <|
    require (decide (Config.minFrame ≤ s.srcLen)) .frameTooShort <|
    require (decide (s.srcLen ≤ Config.maxFrame)) .frameTooLong <|
    require (inRange s.srcAddr s.srcLen) .badRange <|
    .ok { s with
      hdrTid := BitVec.ofNat 16 (be16 f 0)
      hdrProto := BitVec.ofNat 16 (be16 f 2)
      hdrLen := BitVec.ofNat 16 len
      hdrUnit := byteAt f 6
      hdrMsgid := byteAt f 7
      bodyNeed := BitVec.ofNat 17 (bodyNeedCount len s.srcLen)
      bodyComplete := bodyCompleteFlag len s.srcLen
      draws := s.draws + 1 }

/-- `kindOf(m, L)` (41_frame_decoder.md R125). -/
def kindOf (m : Byte) (len : Nat) : MessageKind :=
  if m = Config.msgData then (if len = Config.lenRegisters then .registersReport else .unknown)
  else if m = Config.msgDataVariant then (if len = Config.lenRegisters then .announce else .unknown)
  else if m = Config.msgPing then (if len = Config.lenPingShort ∨ len = Config.lenPingLong then .ping else .unknown)
  else if m = Config.msgConfigBlock then (if len = Config.lenRegisters then .rawConfigBlock else .unknown)
  else if m = Config.msgIdentify then .identifyResponse
  else .unknown

/-- CLASSIFY (41_frame_decoder.md R124). -/
def execClassify (s : State) : Host.Outcome State Fault Refusal :=
  finish s <|
    require (decide (s.hdrProto = Config.protoV5 ∨ s.hdrProto = Config.protoV6)) .unsupportedProtocol <|
    .ok { s with kind := kindOf s.hdrMsgid s.hdrLen.toNat }

end Sys2Proof.Machine
end

