-- ==== Sys2Proof/Machine/RecordParser.lean ====
section
/-! DEFINITION. The record parser (43_record_parser.md): PARSE. -/

namespace Sys2Proof.Machine

/-- The value of field i: big-endian, unsigned, zero-extended to 32 bits. Each field is a read of DMEM of its own
(43_record_parser.md R152, R153). -/
def fieldValue (s : State) (i : Nat) : Word :=
  let d := s.desc.toList.getD i 0#18
  let a := s.srcAddr + Config.recBase + descOff d
  if descW d = 1 then BitVec.ofNat 32 (be16 (memRead s i a 2) 0) else BitVec.ofNat 32 (be32 (memRead s i a 4) 0)

/-- PARSE (43_record_parser.md R152); REC[NDESC .. 63] keep their values (10_state.md R48). -/
def execParse (s : State) : Host.Outcome State Fault Refusal :=
  let nd := s.ndesc.toNat
  finish s <|
    require (decide (nd ≤ Config.ndescMax)) .badDesc <|
    require (s.descInUse.all descLegal) .badDesc <|
    require (inRange s.srcAddr s.srcLen) .badRange <|
    require (decide (Config.recBase + s.recSize ≤ s.srcLen)) .truncatedRecord <|
    .ok { s with
      recs := tabulate 64 fun i => if i < nd then fieldValue s i else s.recs.toList.getD i 0#32
      draws := s.draws + nd }

end Sys2Proof.Machine
end

