-- ==== Sys2Proof/Machine/Dispatch.lean ====
section
/-! DEFINITION. The meaning of every command: the Engine step of 45_control.md R191 and R192 for a decoded word. -/

namespace Sys2Proof.Machine

def exec (i : Instr) (s : State) : Host.Outcome State Fault Refusal :=
  match i with
  | .nop => Sys2Proof.Machine.execNop s
  | .crc c => Sys2Proof.Machine.execCrc c s
  | .crcAppend c => Sys2Proof.Machine.execCrcAppend c s
  | .crcVerify c => Sys2Proof.Machine.execCrcVerify c s
  | .decodeHdr => Sys2Proof.Machine.execDecodeHdr s
  | .classify => Sys2Proof.Machine.execClassify s
  | .deobf => Sys2Proof.Machine.execDeobf s
  | .parse => Sys2Proof.Machine.execParse s
  | .buildHdr => Sys2Proof.Machine.execBuildHdr s
  | .buildAck => Sys2Proof.Machine.execBuildAck s
  | .pingEcho => Sys2Proof.Machine.execPingEcho s

end Sys2Proof.Machine
end

