-- ==== Sys2Proof/WellFormed.lean ====
section
/-! DEFINITION. Which command words and which Host assembly programs are legal. -/

namespace Sys2Proof

/-- The opcode map's OP values (30_encoding.md R81). -/
def opcodes : List Byte :=
  [0x00#8, 0x01#8, 0x02#8, 0x03#8, 0x10#8, 0x11#8, 0x20#8, 0x30#8, 0x40#8, 0x41#8, 0x42#8]

/-- The OP values that may carry C = 1 (30_encoding.md R83). -/
def continueOpcodes : List Byte := [0x01#8, 0x02#8, 0x03#8]

/-- A legal command word: RES is 0, OP is in the map, and C = 1 only on the CRC family (30_encoding.md R90). -/
def Cmd32.wellFormed (f : Cmd32) : Bool :=
  f.res == 0#23 && opcodes.contains f.op && (!f.c || continueOpcodes.contains f.op)

/-- Every term of `Instr` is well formed: its type gives the C bit to the CRC family alone (30_encoding.md R83), and no
command has another operand in the command word (R80). -/
def Instr.wellFormed (i : Instr) : Bool :=
  match i with
  | .nop => true
  | .crc _ => true
  | .crcAppend _ => true
  | .crcVerify _ => true
  | .decodeHdr => true
  | .classify => true
  | .deobf => true
  | .parse => true
  | .buildHdr => true
  | .buildAck => true
  | .pingEcho => true

/-- The labels a statement goes to. -/
def AsmStmt.targets : AsmStmt → List Nat
  | .brc _ _ l => [l]
  | .brs _ _ l => [l]
  | .jmp l => [l]
  | _ => []

/-- The label a statement defines. -/
def AsmStmt.definesLabel : AsmStmt → List Nat
  | .label l => [l]
  | _ => []

/-- A statement by itself: `wb`, `rb` and `wbs` name bytes of DMEM, `wbs` names at least one byte, and a branch tests one
of the 32 bits of a register (30_encoding.md R91, R92). -/
def AsmStmt.wellFormed (st : AsmStmt) : Bool :=
  match st with
  | .wb a _ => decide (a.toNat < Config.dmemSize)
  | .rb a => decide (a.toNat < Config.dmemSize)
  | .wbs a vs => !vs.isEmpty && decide (a.toNat + vs.length ≤ Config.dmemSize)
  | .brc _ bit _ => decide (bit < 32)
  | .brs _ bit _ => decide (bit < 32)
  | .cmd i => i.wellFormed
  | .run i => i.wellFormed
  | .wr _ _ => true
  | .rd _ => true
  | .wait => true
  | .waitReady => true
  | .set _ _ _ => true
  | .label _ => true
  | .jmp _ => true
  | .halt => true

/-- A Host program: every statement is well formed, every label is defined once, and every branch has its label. -/
def asmWellFormed (prog : List AsmStmt) : Bool :=
  prog.all AsmStmt.wellFormed
    && decide (prog.flatMap AsmStmt.definesLabel).Nodup
    && (prog.flatMap AsmStmt.targets).all ((prog.flatMap AsmStmt.definesLabel).contains ·)

end Sys2Proof
end

