-- ==== Sys2Proof/Decode.lean ====
section
/-! DEFINITION. The decoder of command words, total on every 32-bit word and rejecting by name (30_encoding.md R90), and the
encoder written from the same table (R80, R81). -/

namespace Sys2Proof

/-- The fields of a command word (30_encoding.md R80). -/
def Cmd32.ofWord (w : Word) : Cmd32 :=
  { op := w.extractLsb' 0 8, c := w.getLsbD 8, res := w.extractLsb' 9 23 }

/-- The command an OP value names, with its C bit where it has one (30_encoding.md R81). -/
def opInstr (op : Byte) (c : Bool) : Option Instr :=
  if op = 0x00#8 then some .nop
  else if op = 0x01#8 then some (.crc c)
  else if op = 0x02#8 then some (.crcAppend c)
  else if op = 0x03#8 then some (.crcVerify c)
  else if op = 0x10#8 then some .decodeHdr
  else if op = 0x11#8 then some .classify
  else if op = 0x20#8 then some .deobf
  else if op = 0x30#8 then some .parse
  else if op = 0x40#8 then some .buildHdr
  else if op = 0x41#8 then some .buildAck
  else if op = 0x42#8 then some .pingEcho
  else none

/-- Decoding of OP and C: a reserved OP is illegal (30_encoding.md R85), and so is C = 1 outside the CRC family (R83). -/
def decodeOp (op : Byte) (c : Bool) : Decoded :=
  match opInstr op c with
  | none => .illegal .reservedOp
  | some i => if c && !continueOpcodes.contains op then .illegal .continueNotAllowed else .command i

/-- Decoding of the fields: RES first, then OP, then C, as `decode` of 30_encoding.md R90. -/
def Cmd32.decode (f : Cmd32) : Decoded :=
  if f.res = 0#23 then decodeOp f.op f.c else .illegal .reservedBits

/-- Decoding of a command word (30_encoding.md R90). -/
def decode (w : Word) : Decoded := (Cmd32.ofWord w).decode

/-- The fields of a command's word (30_encoding.md R81). -/
def Instr.fields (i : Instr) : Cmd32 :=
  match i with
  | .nop => { op := 0x00#8, c := false, res := 0#23 }
  | .crc c => { op := 0x01#8, c := c, res := 0#23 }
  | .crcAppend c => { op := 0x02#8, c := c, res := 0#23 }
  | .crcVerify c => { op := 0x03#8, c := c, res := 0#23 }
  | .decodeHdr => { op := 0x10#8, c := false, res := 0#23 }
  | .classify => { op := 0x11#8, c := false, res := 0#23 }
  | .deobf => { op := 0x20#8, c := false, res := 0#23 }
  | .parse => { op := 0x30#8, c := false, res := 0#23 }
  | .buildHdr => { op := 0x40#8, c := false, res := 0#23 }
  | .buildAck => { op := 0x41#8, c := false, res := 0#23 }
  | .pingEcho => { op := 0x42#8, c := false, res := 0#23 }

/-- The command word with given fields: RES, then C, then OP, most significant first (30_encoding.md R80). -/
def Cmd32.toWord (f : Cmd32) : Word :=
  (f.res ++ BitVec.ofBool f.c ++ f.op : BitVec (23 + 1 + 8))

/-- The command word of a command (30_encoding.md R80, R81). -/
def encode (i : Instr) : Word := i.fields.toWord

/-- What the decoder reads from the low `nbits` bits of `w`, every higher bit of the 32-bit command word being 0. A command
word is one 32-bit register write, so there is no byte order to apply (20_memory.md R67). -/
def decodeTableWord (nbits w : Nat) : Option Instr :=
  match decode (BitVec.ofNat 32 (w % 2 ^ nbits)) with
  | .command i => some i
  | .illegal _ => none

end Sys2Proof
end

