-- ==== Sys2Proof/Machine/HostWindow.lean ====
section
/-! DEFINITION. The host window (20_memory.md R60 to R64, 10_state.md R23): which register stands at which offset, what a Host
read returns, what a Host write does, and the model faults of a Host access. -/

namespace Sys2Proof.Machine

/-- The offset of a register (10_state.md R23). -/
def regOffset : RegName → Nat
  | .id => 0x000
  | .status => 0x004
  | .cmd => 0x008
  | .errcode => 0x00C
  | .addrA => 0x010
  | .lenA => 0x014
  | .addrD => 0x018
  | .config => 0x01C
  | .crcResult => 0x020
  | .outLen => 0x024
  | .bodyNeed => 0x028
  | .kind => 0x02C
  | .hdrTid => 0x030
  | .hdrProto => 0x034
  | .hdrLen => 0x038
  | .hdrUnit => 0x03C
  | .hdrMsgid => 0x040
  | .keyLen => 0x044
  | .ndesc => 0x048
  | .recSize => 0x04C
  | .recBase => 0x050
  | .memSize => 0x054
  | .keyW j => 0x060 + 4 * j.val
  | .desc i => 0x100 + 4 * i.val
  | .recEntry i => 0x200 + 4 * i.val
  | .tbl i => 0x400 + 4 * i.val

/-- The single registers, each with the access the map gives it (10_state.md R23). -/
def singleRegs : List RegName :=
  [.id, .status, .cmd, .errcode, .addrA, .lenA, .addrD, .config, .crcResult, .outLen, .bodyNeed, .kind,
   .hdrTid, .hdrProto, .hdrLen, .hdrUnit, .hdrMsgid, .keyLen, .ndesc, .recSize, .recBase, .memSize,
   .keyW 0, .keyW 1, .keyW 2, .keyW 3]

/-- The register at a 4-byte-aligned offset below 0x1000, or none where the offset is unassigned (10_state.md R23,
20_memory.md R63). -/
def regAt (off : Nat) : Option RegName :=
  if off % 4 ≠ 0 then none
  else if h : 0x100 ≤ off ∧ off < 0x200 then some (.desc ⟨(off - 0x100) / 4, by omega⟩)
  else if h : 0x200 ≤ off ∧ off < 0x300 then some (.recEntry ⟨(off - 0x200) / 4, by omega⟩)
  else if h : 0x400 ≤ off ∧ off < 0x800 then some (.tbl ⟨(off - 0x400) / 4, by omega⟩)
  else singleRegs.find? fun r => regOffset r == off

/-- How the Host may access a register (10_state.md R23). -/
def regAccess : RegName → Access
  | .cmd => .writeOnly
  | .addrA | .lenA | .addrD | .config => .readWrite
  | .hdrTid | .hdrProto | .hdrLen | .hdrUnit | .hdrMsgid => .readWrite
  | .keyLen | .ndesc | .keyW _ | .desc _ => .readWrite
  | .id | .status | .errcode | .crcResult | .outLen | .bodyNeed | .kind => .readOnly
  | .recSize | .recBase | .memSize | .recEntry _ | .tbl _ => .readOnly

/-- What a register reads as while STATUS.BUSY = 0: its field zero-extended to 32 bits (10_state.md R23 to R49). TBL before
READY = 1 is a free 16-bit value (10_state.md R49, 93_implementation_defined.md U1). -/
def readReg (s : State) (r : RegName) : Word :=
  match r with
  | .id => Config.idValue
  | .status => statusWord s
  | .cmd => 0#32
  | .errcode => s.errcode.setWidth 32
  | .addrA => s.addrA.setWidth 32
  | .lenA => s.lenA.setWidth 32
  | .addrD => s.addrD.setWidth 32
  | .config => (BitVec.ofBool s.crcOrder).setWidth 32
  | .crcResult => s.crcResult.setWidth 32
  | .outLen => s.outLen.setWidth 32
  | .bodyNeed => s.bodyNeed.setWidth 32
  | .kind => s.kind.code.setWidth 32
  | .hdrTid => s.hdrTid.setWidth 32
  | .hdrProto => s.hdrProto.setWidth 32
  | .hdrLen => s.hdrLen.setWidth 32
  | .hdrUnit => s.hdrUnit.setWidth 32
  | .hdrMsgid => s.hdrMsgid.setWidth 32
  | .keyLen => s.keyLen.setWidth 32
  | .ndesc => s.ndesc.setWidth 32
  | .recSize => BitVec.ofNat 32 s.recSize
  | .recBase => BitVec.ofNat 32 Config.recBase
  | .memSize => BitVec.ofNat 32 Config.dmemSize
  | .keyW j => s.keyW[j]
  | .desc i => s.desc[i].setWidth 32
  | .recEntry i => s.recs[i]
  | .tbl i => if s.initDone then s.tbl[i].setWidth 32 else ((freshWord s 0).setWidth 16).setWidth 32

/-- A write to a register while STATUS.BUSY = 0: an RW register holds the bits of its field, a CMD write issues the word,
and a write to an RO register is ignored (10_state.md R23, R26, R52; 45_control.md R190). -/
def writeReg (r : RegName) (v : Word) (s : State) : State :=
  match r with
  | .cmd => issue v s
  | .addrA => { s with addrA := v.setWidth Config.addrBits }
  | .lenA => { s with lenA := v.setWidth Config.addrBits }
  | .addrD => { s with addrD := v.setWidth Config.addrBits }
  | .config => { s with crcOrder := v.getLsbD 0 }
  | .hdrTid => { s with hdrTid := v.setWidth 16 }
  | .hdrProto => { s with hdrProto := v.setWidth 16 }
  | .hdrLen => { s with hdrLen := v.setWidth 16 }
  | .hdrUnit => { s with hdrUnit := v.setWidth 8 }
  | .hdrMsgid => { s with hdrMsgid := v.setWidth 8 }
  | .keyLen => { s with keyLen := v.setWidth 5 }
  | .ndesc => { s with ndesc := v.setWidth 7 }
  | .keyW j => { s with keyW := s.keyW.set j v }
  | .desc i => { s with desc := s.desc.set i (v.setWidth 18) }
  | .id | .status | .errcode | .crcResult | .outLen | .bodyNeed | .kind => s
  | .recSize | .recBase | .memSize | .recEntry _ | .tbl _ => s

/-- A Host read returns: the Host holds the value, and the instance is as it was (20_memory.md R71). Every read has a draw
number of its own (assumption log 3). -/
def returnRead (v : Word) (s : State) : State := { s with readData := v, draws := s.draws + 1 }

/-- A Host access of a wrong width or alignment (20_memory.md R64): BUS_MISUSE enters FAULTS and no other state of the
instance changes. What a misused read returns to the Host is free (assumption log 7). -/
def misuse (acc : BusAccess) (s : State) : State :=
  match acc.value with
  | some _ => recordFault .busMisuse s
  | none => recordFault .busMisuse (returnRead (freshWord s 0) s)

/-- A Host read of a register: while STATUS.BUSY = 1, only STATUS has a specified value (10_state.md R53; assumption
log 8). -/
def hostReadReg (r : RegName) (s : State) : State :=
  if s.busy && !decide (r = .status) then returnRead (freshWord s 0) s else returnRead (readReg s r) s

/-- A Host write of a register. A write to an RO register is ignored at all times; a write to an RW register or to CMD
while STATUS.BUSY = 1 is a hazard, and what it writes is a free value (10_state.md R52, 70_reset_and_hazards.md R235;
assumption log 6). -/
def hostWriteReg (r : RegName) (v : Word) (s : State) : State :=
  if regAccess r = .readOnly then s
  else if s.busy then hazard (writeReg r (freshWord s 0) s)
  else writeReg r v s

/-- A Host read of the DMEM part of the window; an unassigned offset reads 0 (20_memory.md R62, R63; 10_state.md R53). -/
def hostReadByte (a : Nat) (s : State) : State :=
  if a < Config.dmemSize then
    if s.busy then returnRead (((freshWord s 0).setWidth 8).setWidth 32) s
    else returnRead ((s.dmem.readByte (s.draw 0) a).setWidth 32) s
  else returnRead 0#32 s

/-- A Host write of a DMEM byte; an unassigned offset ignores it; while STATUS.BUSY = 1 it is a hazard (20_memory.md R62,
R63; 70_reset_and_hazards.md R235). -/
def hostWriteByte (a : Nat) (v : Byte) (s : State) : State :=
  if a < Config.dmemSize then
    if s.busy then hazard { s with dmem := s.dmem.store a ((freshWord s 0).setWidth 8) }
    else { s with dmem := s.dmem.store a v }
  else s

/-- A 32-bit aligned access of the register part of the window (20_memory.md R61 to R63). -/
def registerAccess (acc : BusAccess) (s : State) : State :=
  match regAt acc.offset.toNat, acc.value with
  | some r, some v => hostWriteReg r v s
  | some r, none => hostReadReg r s
  | none, some _ => s
  | none, none => returnRead 0#32 s

/-- A byte access of the DMEM part of the window (20_memory.md R61 to R63). The byte written is the low byte of the
triple's value. -/
def byteAccess (acc : BusAccess) (s : State) : State :=
  match acc.value with
  | some v => hostWriteByte (acc.offset.toNat - Config.dmemWindow) (v.setWidth 8) s
  | none => hostReadByte (acc.offset.toNat - Config.dmemWindow) s

/-- The access has the width and the alignment its region allows (20_memory.md R61, R62). -/
def BusAccess.allowed (acc : BusAccess) : Bool :=
  if acc.offset.toNat < Config.dmemWindow then acc.width == Config.regWidth && acc.offset.toNat % 4 == 0 else acc.width == 8

/-- One Host access, one indivisible event (20_memory.md R70). -/
def hostAccess (acc : BusAccess) (s : State) : State :=
  if !BusAccess.allowed acc then misuse acc s
  else if acc.offset.toNat < Config.dmemWindow then registerAccess acc s
  else byteAccess acc s

end Sys2Proof.Machine
end

