-- ==== Sys2Proof/Machine/HostProgram.lean ====
section
/-! DEFINITION. The Host's program: the assembly of 30_encoding.md R91 and R92 expanded into Host operations, its encoding as bus
triples (R93), and one step of the Host. -/

namespace Sys2Proof.Machine

/-- `wr NAME, v` (30_encoding.md R91). -/
def wrOp (r : RegName) (v : Word) : HostOp := .bus { offset := BitVec.ofNat 13 (regOffset r), width := 32, value := some v }

/-- `rd NAME` (30_encoding.md R91). -/
def rdOp (r : RegName) : HostOp := .bus { offset := BitVec.ofNat 13 (regOffset r), width := 32, value := none }

/-- `wb a, v` at window offset 0x1000 + a (30_encoding.md R91). -/
def wbOp (a : BitVec 12) (v : Byte) : HostOp :=
  .bus { offset := 1#1 ++ a, width := 8, value := some (v.setWidth 32) }

/-- `rb a` at window offset 0x1000 + a (30_encoding.md R91). -/
def rbOp (a : BitVec 12) : HostOp := .bus { offset := 1#1 ++ a, width := 8, value := none }

/-- `wbs a, b0, ..., bk` is `wb a, b0`, `wb a+1, b1`, ... (30_encoding.md R92). -/
def wbsOps : BitVec 12 → List Byte → List HostOp
  | _, [] => []
  | a, v :: vs => wbOp a v :: wbsOps (a + 1#12) vs

/-- `wr NAME, v` where the operand of `set` is given, nothing where it is left out (30_encoding.md R92). -/
def setOp (r : RegName) : Option Word → List HostOp
  | some v => [wrOp r v]
  | none => []

/-- The loop that reads STATUS at position `pos` until bit `b` of the value read is 1 (30_encoding.md R92). -/
def pollOps (pos b : Nat) : List HostOp := [rdOp .status, .branchIf b false pos]

/-- The operations a statement at position `pos` expands to, with the positions of the labels (30_encoding.md R91, R92). -/
def expandStmt (labelPos : Nat → Nat) (pos : Nat) (st : AsmStmt) : List HostOp :=
  match st with
  | .wr r v => [wrOp r v]
  | .rd r => [rdOp r]
  | .wb a v => [wbOp a v]
  | .rb a => [rbOp a]
  | .cmd i => [wrOp .cmd (encode i)]
  | .wait => pollOps pos 2
  | .run i => wrOp .cmd (encode i) :: pollOps (pos + 1) 2
  | .wbs a vs => wbsOps a vs
  | .waitReady => pollOps pos 0
  | .set a n d => setOp .addrA a ++ setOp .lenA n ++ setOp .addrD d
  | .label _ => []
  | .brc r b l => [rdOp r, .branchIf b false (labelPos l)]
  | .brs r b l => [rdOp r, .branchIf b true (labelPos l)]
  | .jmp l => [.jump (labelPos l)]
  | .halt => [.halt]

/-- How many operations a statement expands to, which no label changes. -/
def stmtLength (st : AsmStmt) : Nat := (expandStmt (fun _ => 0) 0 st).length

/-- Where a label stands in a program whose first statement is at `pos`; a label that is not defined stands at its end. -/
def labelPosition : Nat → List AsmStmt → Nat → Nat
  | pos, [], _ => pos
  | pos, st :: rest, l => if st = .label l then pos else labelPosition (pos + stmtLength st) rest l

/-- The statements from position `pos` on, expanded. -/
def expandFrom (labelPos : Nat → Nat) : Nat → List AsmStmt → List HostOp
  | _, [] => []
  | pos, st :: rest => expandStmt labelPos pos st ++ expandFrom labelPos (pos + stmtLength st) rest

/-- A Host program, expanded and its labels resolved (30_encoding.md R92). -/
def assemble (prog : List AsmStmt) : List HostOp := expandFrom (labelPosition 0 prog) 0 prog

/-- The bus access of an operation: labels, branches and `halt` add none (30_encoding.md R93). -/
def HostOp.triple : HostOp → Option BusAccess
  | .bus acc => some acc
  | .branchIf _ _ _ => none
  | .jump _ => none
  | .halt => none

/-- Where the Host goes from an operation at place `pc`, given the value last read (30_encoding.md R92). -/
def HostOp.nextPc (op : HostOp) (last : Word) (pc : Nat) : Nat :=
  match op with
  | .bus _ => pc + 1
  | .branchIf bit on target => if last.getLsbD bit = on then target else pc + 1
  | .jump target => target
  | .halt => pc

/-- The bus accesses of a program's first `fuel` operations from place `pc` on, where `last` is the value last read and the
reads return the values `reads` in turn: branches decide which accesses follow, and no access follows a read that has not
returned (30_encoding.md R92, R93). -/
def accessesFrom (prog : List HostOp) : Nat → Nat → Word → List Word → List BusAccess
  | 0, _, _, _ => []
  | fuel + 1, pc, last, reads =>
    match prog[pc]? with
    | none => []
    | some op =>
      match HostOp.triple op with
      | none => accessesFrom prog fuel (HostOp.nextPc op last pc) last reads
      | some acc =>
        acc :: match acc.value, reads with
          | some _, _ => accessesFrom prog fuel (HostOp.nextPc op last pc) last reads
          | none, [] => []
          | none, v :: rest => accessesFrom prog fuel (HostOp.nextPc op last pc) v rest

/-- The encoding of a Host program whose reads return the values `reads`: the bus triples of its first `fuel` operations. A
polling loop gives a read for every value up to the one with its bit set (30_encoding.md R93). -/
def encodeProgram (prog : List AsmStmt) (fuel : Nat) (reads : List Word) : List BusAccess :=
  accessesFrom (assemble prog) fuel 0 0#32 reads

/-! ### The record layout and the boot order -/

/-- Fields laid end to end from record offset `off` on, given their width codes: (OFF, W) of each (43_record_parser.md
R150). -/
def contiguousFields : Nat → List Nat → List (Nat × Nat)
  | _, [] => []
  | off, wc :: rest => (off, wc) :: contiguousFields (off + fieldWidth wc) rest

/-- How many bytes fields of the given width codes take. -/
def fieldsSize (wcs : List Nat) : Nat := (wcs.map fieldWidth).sum

/-- A record layout with its one 12-byte padding region between the fields `before` and the fields `after`: the first field
after the padding starts PAD_LEN bytes past the end of the last one before it (43_record_parser.md R154). -/
def paddedLayout (before after : List Nat) : List (Nat × Nat) :=
  contiguousFields 0 before ++ contiguousFields (fieldsSize before + Config.padLen) after

/-- The DESC word of a field (10_state.md R44). -/
def descWord (field : Nat × Nat) : Word := BitVec.ofNat 2 field.2 ++ BitVec.ofNat 16 field.1 |>.setWidth 32

/-- `wr DESC[i], …` for each field of a layout, then `wr NDESC, n` (70_reset_and_hazards.md R234, step 4). A layout of more
than 64 fields has no descriptor for the others. -/
def layoutStmts (layout : List (Nat × Nat)) : List AsmStmt :=
  (layout.zipIdx.filterMap fun (field, i) =>
      if h : i < 64 then some (.wr (.desc ⟨i, h⟩) (descWord field)) else none)
    ++ [.wr .ndesc (BitVec.ofNat 32 layout.length)]

/-- The Host's boot order (70_reset_and_hazards.md R234, steps 1 to 4): wait for READY; the key, unless it is the reset key;
the checksum order, if the peer expects the low byte first; the record layout. -/
def bootProgram (key : Option (Vector Word 4 × Word)) (lowByteFirst : Bool) (layout : List (Nat × Nat)) : List AsmStmt :=
  [.waitReady]
    ++ (match key with
        | some (k, n) => [.wr (.keyW 0) k[0], .wr (.keyW 1) k[1], .wr (.keyW 2) k[2], .wr (.keyW 3) k[3], .wr .keyLen n]
        | none => [])
    ++ (if lowByteFirst then [.wr .config 1#32] else [])
    ++ layoutStmts layout

/-- One step of the Host: the operation at its place in the program; at `halt`, and past the end, the Host does nothing
more (30_encoding.md R92). -/
def hostStep (s : State) : State :=
  match s.hostProg[s.hostPc]? with
  | none => s
  | some op =>
    match HostOp.triple op with
    | some acc => { hostAccess acc s with hostPc := HostOp.nextPc op s.readData s.hostPc }
    | none => { s with hostPc := HostOp.nextPc op s.readData s.hostPc }

end Sys2Proof.Machine
end

