-- ==== Sys2Proof/Machine/Agents.lean ====
section
/-! DEFINITION. The agents of an instance and whose turn it is (10_state.md R20): the Engine's two steps, the Host's step, the
platform's reset, and how a command word comes to be the next thing the Engine runs. -/

namespace Sys2Proof.Machine

/-- The Engine has an enabled step: the table build while INIT_DONE is false (70_reset_and_hazards.md R232), the pending
command while STATUS.BUSY = 1 and STATUS.READY = 1 (45_control.md R191). -/
def engineEnabled (s : State) : Bool := !s.initDone || s.busy

/-- Execution of a pending command word: the decoded command, or the illegal outcome (45_control.md R191,
30_encoding.md R90). -/
def runWord (w : Word) (s : State) : Host.Outcome State Fault Refusal :=
  match decode w with
  | .command i => exec i s
  | .illegal _ => execIllegal s

/-- The Engine's step: the table build first (70_reset_and_hazards.md R232), then the pending command, whose result is
free where a HOST_HAZARD made it undefined (70_reset_and_hazards.md R235). -/
def engineStep (s : State) : Host.Outcome State Fault Refusal :=
  if !s.initDone then .next (buildTable s)
  else
    match s.pending with
    | none => .next s
    | some w => if s.tainted then .next (completeTainted s) else runWord w s

/-- One step of the machine: the agent at the head of `turns` moves; once `turns` is used up, an enabled Engine step is
taken first and otherwise the Host moves (45_control.md R195; assumption log 1). -/
def advance (s : State) : Host.Outcome State Fault Refusal :=
  match s.turns with
  | [] => if engineEnabled s then engineStep s else .next (hostStep s)
  | .host :: rest => .next (hostStep { s with turns := rest })
  | .engine :: rest =>
    if engineEnabled s then engineStep { s with turns := rest } else .next { s with turns := rest }
  | .reset :: rest => .next (platformReset { s with turns := rest })

/-- The state in which a command word is pending and the Engine is the next to move: the table is built and the word is
issued (45_control.md R190, R191; assumption log 10). -/
def loadCommand (w : Word) (s : State) : State :=
  { issue w (if s.initDone then s else buildTable s) with tainted := false, turns := [] }

end Sys2Proof.Machine
end

