-- ==== Sys2Proof/Machine/Step.lean ====
section
/-! DEFINITION. The step of the machine, and a state whose next step runs a given command word. -/

namespace Sys2Proof.Machine

/-- One step: one Host operation, one Engine step or one platform reset. -/
def step (s : State) : Host.Outcome State Fault Refusal := advance s

/-- `s` with the command word whose bits are `w` pending and the Engine next to move (45_control.md R190, R191). -/
def State.withFetchWord (s : State) (nbits w : Nat) : State := loadCommand (BitVec.ofNat 32 (w % 2 ^ nbits)) s

end Sys2Proof.Machine
end

