-- ==== Sys2Proof/Machine/Platform.lean ====
section
/-! DEFINITION. A platform of N_INST instances, each with its own state and its own host window (60_exceptions.md R212,
10_state.md R55, 20_memory.md R72). -/

namespace Sys2Proof.Machine

/-- The instances of a platform; they share nothing (10_state.md R55). -/
structure Platform where
  cells : List State
deriving DecidableEq, Repr

/-- N_INST instances, each after its own reset and with a tape of free values of its own: what one reads of bytes never
written, and of registers while busy, says nothing of what another reads (60_exceptions.md R212, 70_reset_and_hazards.md
R233; assumption log 15). -/
def Platform.reset : Platform :=
  { cells := (List.range Config.nInst).map fun k => { State.reset with tape := k } }

/-- Instance `k` takes a step; a number that names no instance names nothing that could move. -/
def Platform.stepAt (p : Platform) (k : Nat) : Host.Outcome Platform Fault Refusal :=
  match p.cells[k]? with
  | none => .next p
  | some s =>
    match step s with
    | .next t => .next { cells := p.cells.set k t }
    | .fault f => .fault f
    | .refused r => .refused r

/-- The instance whose host window holds a system address, and the offset in it (20_memory.md R72). -/
def Platform.route (p : Platform) (addr : Nat) : Option (Nat × WinOff) :=
  ((List.range p.cells.length).find? fun k =>
      decide (Config.gpeBase k ≤ addr ∧ addr < Config.gpeBase k + Config.windowSize)).map
    fun k => (k, BitVec.ofNat 13 (addr - Config.gpeBase k))

/-- A Host access at a system address, which reaches one instance or none. -/
def Platform.access (p : Platform) (addr width : Nat) (value : Option Word) : Platform :=
  match p.route addr with
  | none => p
  | some (k, off) =>
    match p.cells[k]? with
    | none => p
    | some s => { cells := p.cells.set k (hostAccess { offset := off, width := width, value := value } s) }

end Sys2Proof.Machine
end

