-- ==== Sys2Proof/Safety.lean ====
section
/-! DEFINITION. What claims about GPE are stated in: runs outside every claim, bytes that have a known value, the bytes a command
leaves alone, and the invariant that every step keeps. -/

namespace Sys2Proof.Machine

/-- FAULTS is empty: a claim about a run must assume it at the end of the run (60_exceptions.md R210). -/
def State.faultFree (s : State) : Prop := s.faultBusMisuse = false ∧ s.faultHostHazard = false

/-- Every byte of the range has been written since reset (10_state.md R51), so that reading it involves no free choice. -/
def rangeWritten (m : Memory) (a n : Nat) : Prop := ∀ i < n, m.written (a + i) = true

/-- The bytes `bs` stand in DMEM from address `a` on, all of them written. -/
def holdsBytes (m : Memory) (a : Nat) (bs : List Byte) : Prop := ∀ i < bs.length, m.lookup (a + i) = bs[i]?

/-- Every byte outside the `n` bytes from `a` on is as it was: the same value where it was written, unwritten where it was
not. -/
def sameOutside (m m' : Memory) (a n : Nat) : Prop := ∀ x, ¬(a ≤ x ∧ x < a + n) → m'.lookup x = m.lookup x

/-- The byte at address `a` as the k-th read of DMEM by the next command sees it (70_reset_and_hazards.md R233). -/
def State.sees (s : State) (k a : Nat) : Nat := (s.dmem.readByte (s.draw k) a).toNat

/-- The range `d .. d+m-1` meets the range `a .. a+n-1` (00_scope.md R9, `overlaps`). -/
def meets (a n d m : Nat) : Prop := 0 < n ∧ 0 < m ∧ a < d + m ∧ d < a + n

/-- The bits of the 32-bit word that a register's field occupies (10_state.md R23). -/
def fieldBits : RegName → Nat
  | .id | .cmd | .recBase | .memSize | .keyW _ | .recEntry _ => 32
  | .status => 7
  | .errcode | .hdrUnit | .hdrMsgid => 8
  | .addrA | .lenA | .addrD | .crcResult | .outLen | .hdrTid | .hdrProto | .hdrLen | .tbl _ => 16
  | .config => 1
  | .bodyNeed => 17
  | .kind => 3
  | .keyLen => 5
  | .ndesc => 7
  | .recSize | .desc _ => 18

/-- A word with the bits above a register's field set to 0 (10_state.md R23). -/
def inField (r : RegName) (v : Word) : Word := v &&& BitVec.ofNat 32 (2 ^ fieldBits r - 1)

/-- The error codes a command can end with once its word is decoded (60_exceptions.md R200, R202). -/
def errorsOf : Instr → List ErrCode
  | .nop => []
  | .crc _ | .crcAppend _ | .crcVerify _ => [.badRange]
  | .decodeHdr => [.frameTooShort, .frameTooLong, .badRange]
  | .classify => [.unsupportedProtocol]
  | .deobf => [.badKey, .badRange, .overlap]
  | .parse => [.badDesc, .badRange, .truncatedRecord]
  | .buildHdr => [.badRange]
  | .buildAck => [.badRange, .overlap]
  | .pingEcho => [.badLength, .badRange, .overlap]

/-- The values ERRCODE can hold (60_exceptions.md R200). -/
def knownCodes : List Byte :=
  [0x00#8, 0x01#8, 0x02#8, 0x03#8, 0x04#8, 0x10#8, 0x11#8, 0x12#8, 0x13#8, 0x14#8, 0x15#8]

/-- What holds of an instance at every moment. The last four hold of the values the spec gives: a HOST_HAZARD leaves free
values in their place (70_reset_and_hazards.md R235). -/
structure StepInv (s : State) : Prop where
  /-- DMEM is in its canonical form and inside 0 .. 2047 (20_memory.md R68) -/
  memWf : s.dmem.wf = true
  /-- TBL holds the table from READY = 1 on (10_state.md R49, 40_checksum.md R100) -/
  tblBuilt : s.initDone = true → s.tbl = crcTable
  /-- nothing has completed before the table is built (45_control.md R194) -/
  heldUntilReady : s.initDone = false → s.done = false
  /-- STATUS.ERR = 1 for every code other than 0x00 (60_exceptions.md R200) -/
  errIff : s.err = true ↔ s.errcode ≠ 0x00#8
  /-- while a command is pending, DONE = 0 and ERR = 0 (45_control.md R190) -/
  busyClears : s.busy = true → s.done = false ∧ s.err = false
  /-- a command whose result is undefined has its fault on record (60_exceptions.md R210) -/
  taintRecorded : s.tainted = true → s.faultHostHazard = true
  /-- "No other code is ever written" (60_exceptions.md R200) -/
  codeKnown : s.faultHostHazard = false → s.errcode ∈ knownCodes
  /-- codes 2 and 4 are never produced (10_state.md R32) -/
  kindProduced : s.faultHostHazard = false → s.kind ≠ .registersAck ∧ s.kind ≠ .pingAck
  /-- a reply lies inside DMEM (10_state.md R34, 20_memory.md R68) -/
  outLenBound : s.faultHostHazard = false → s.outLen.toNat ≤ Config.dmemSize
  /-- the most a decode of at least 9 bytes can miss (10_state.md R35) -/
  bodyNeedBound : s.faultHostHazard = false → s.bodyNeed.toNat ≤ 65532

end Sys2Proof.Machine
end

