-- ==== Sys2Proof/Certificates/Slice0/Obligations.lean ====
section
/-! DEFINITION. The statements for the provers, one `def Obligations.<Name> : Prop` each; OBLIGATIONS.json lists them with the rules
of spec/ they formalise. -/

open Sys2Proof Sys2Proof.Machine

/-! ### Encoding -/

/-- R90: a word is a command exactly when RES is 0, OP is in the map and C is 0 or OP is of the CRC family; the command is
the one OP and C name; every other word is illegal. -/
def Obligations.DecodeIsTotalByTheOpcodeMap : Prop :=
  ∀ w : Word,
    ((∃ i, decode w = .command i) ↔
      w.extractLsb' 9 23 = 0#23 ∧ w.extractLsb' 0 8 ∈ opcodes ∧
        (w.getLsbD 8 = false ∨ w.extractLsb' 0 8 ∈ [0x01#8, 0x02#8, 0x03#8])) ∧
    (∀ i, decode w = .command i → i.fields.op = w.extractLsb' 0 8 ∧ i.fields.c = w.getLsbD 8) ∧
    ((∀ i, decode w ≠ .command i) → ∃ why, decode w = .illegal why)

/-- R80, R81: the encoding of a command decodes to it, and no other word does. -/
def Obligations.DecodeAndEncodeAgree : Prop :=
  ∀ i : Instr, i.wellFormed = true →
    decode (encode i) = .command i ∧ ∀ w, decode w = .command i → w = encode i

/-- The words of 30_encoding.md R81 and of the test vectors V10, written out. -/
def Obligations.WordsOfTheOpcodeMapDecode : Prop :=
  decode 0x00000000#32 = .command .nop ∧
  decode 0x00000001#32 = .command (.crc false) ∧
  decode 0x00000101#32 = .command (.crc true) ∧
  decode 0x00000102#32 = .command (.crcAppend true) ∧
  decode 0x00000003#32 = .command (.crcVerify false) ∧
  decode 0x00000010#32 = .command .decodeHdr ∧
  decode 0x00000011#32 = .command .classify ∧
  decode 0x00000020#32 = .command .deobf ∧
  decode 0x00000030#32 = .command .parse ∧
  decode 0x00000040#32 = .command .buildHdr ∧
  decode 0x00000041#32 = .command .buildAck ∧
  decode 0x00000042#32 = .command .pingEcho ∧
  decode 0x00000100#32 = .illegal .continueNotAllowed ∧
  decode 0x80000001#32 = .illegal .reservedBits ∧
  decode 0x00000012#32 = .illegal .reservedOp

/-- R84, R85: a pending word with a reserved bit or a reserved OP (or C where it is not allowed) ends with BAD_OPCODE and
changes ERRCODE and STATUS alone. -/
def Obligations.IllegalWordEndsWithBadOpcode : Prop :=
  ∀ (s : State) (w : Word), s.initDone = true → s.pending = some w → s.tainted = false → s.turns = [] →
    (w.extractLsb' 9 23 ≠ 0#23 ∨ w.extractLsb' 0 8 ∉ opcodes ∨
      (w.getLsbD 8 = true ∧ w.extractLsb' 0 8 ∉ [0x01#8, 0x02#8, 0x03#8])) →
    step s = .next { s with errcode := 0x10#8, err := true, pending := none, done := true }

/-- R23: every register stands at the offset the map gives it, and at no other. -/
def Obligations.RegisterMapIsOneToOne : Prop :=
  ([.id, .status, .cmd, .errcode, .addrA, .lenA, .addrD, .config, .crcResult, .outLen, .bodyNeed, .kind, .hdrTid, .hdrProto,
      .hdrLen, .hdrUnit, .hdrMsgid, .keyLen, .ndesc, .recSize, .recBase, .memSize] : List RegName).map regOffset =
    [0x000, 0x004, 0x008, 0x00C, 0x010, 0x014, 0x018, 0x01C, 0x020, 0x024, 0x028, 0x02C, 0x030, 0x034,
      0x038, 0x03C, 0x040, 0x044, 0x048, 0x04C, 0x050, 0x054] ∧
  [RegName.keyW 0, .keyW 1, .keyW 2, .keyW 3].map regOffset = [0x060, 0x064, 0x068, 0x06C] ∧
  (∀ i, regOffset (.desc i) = 0x100 + 4 * i.val) ∧ (∀ i, regOffset (.recEntry i) = 0x200 + 4 * i.val) ∧
  (∀ i, regOffset (.tbl i) = 0x400 + 4 * i.val) ∧
  (∀ r : RegName, regOffset r < Config.dmemWindow ∧ regOffset r % 4 = 0 ∧ regAt (regOffset r) = some r) ∧
  ∀ (off : Nat) (r : RegName), regAt off = some r → regOffset r = off

/-! ### The life of a command -/

/-- A step of the Engine runs the command that the pending word decodes to; moving past its turn is all it adds. -/
def Obligations.StepRunsTheDecodedCommand : Prop :=
  ∀ (s : State) (w : Word) (i : Instr),
    s.initDone = true → s.pending = some w → s.tainted = false → decode w = .command i →
    (s.turns = [] → step s = exec i s) ∧
    (∀ rest, s.turns = .engine :: rest → step s = exec i { s with turns := rest })

/-- R190: what a CMD write does while nothing is pending; while a command is pending it is a hazard. -/
def Obligations.CmdWriteIssuesTheCommand : Prop :=
  ∀ (s : State) (w : Word),
    let t := hostAccess { offset := 0x008#13, width := 32, value := some w } s
    (s.busy = false → t = { s with pending := some w, done := false, err := false, errcode := 0x00#8 }) ∧
    (s.busy = true → t.faultHostHazard = true)

/-- R232: the table build comes first, whatever is pending, and is not repeated until the next reset. -/
def Obligations.TableIsBuiltOnceBeforeAnyCommand : Prop :=
  (∀ s : State, s.initDone = false → s.turns = [] →
    step s = .next { s with tbl := crcTable, initDone := true } ∧
    ∃ t, step s = .next t ∧ (statusWord t).getLsbD 0 = true) ∧
  (∀ (s : State) (rest : List Turn), s.initDone = false → s.turns = .engine :: rest →
    step s = .next { s with tbl := crcTable, initDone := true, turns := rest }) ∧
  (∀ s t : State, s.initDone = true → s.turns.head? ≠ some .reset → step s = .next t →
    t.tbl = s.tbl ∧ t.initDone = true)

/-- R192: every command ends, at once, with BUSY = 0, DONE = 1, and ERR = 1 exactly when ERRCODE is not 0x00. -/
def Obligations.EveryCommandCompletes : Prop :=
  ∀ (i : Instr) (s : State), ∃ t, exec i s = .next t ∧
    t.busy = false ∧ t.done = true ∧ (t.err = true ↔ t.errcode ≠ 0x00#8)

/-- R201: a command word, legal or not, that ends with an error changes exactly ERRCODE and STATUS. -/
def Obligations.ErrorChangesOnlyErrcodeAndStatus : Prop :=
  ∀ (w : Word) (s t : State), runWord w s = .next t → t.err = true →
    ∃ e : ErrCode, e.code ≠ 0x00#8 ∧ t = { s with errcode := e.code, err := true, pending := none, done := true }

/-- R200, R202: the numbers of the error codes, and the codes each command can end with; no other code is written. -/
def Obligations.EachCommandHasItsErrorCodes : Prop :=
  [ErrCode.frameTooShort, .frameTooLong, .unsupportedProtocol, .truncatedRecord, .badOpcode, .badRange, .badKey, .overlap,
      .badDesc, .badLength].map ErrCode.code =
    [0x01#8, 0x02#8, 0x03#8, 0x04#8, 0x10#8, 0x11#8, 0x12#8, 0x13#8, 0x14#8, 0x15#8] ∧
  ∀ (i : Instr) (s t : State), exec i s = .next t →
    t.errcode = 0x00#8 ∨ ∃ e ∈ errorsOf i, t.errcode = e.code

/-- R86: no command writes an operand register, the key, a descriptor, the table, FAULTS or the Host's state. -/
def Obligations.CommandsLeaveOperandsAlone : Prop :=
  ∀ (i : Instr) (s t : State), exec i s = .next t →
    (t.addrA = s.addrA ∧ t.lenA = s.lenA ∧ t.addrD = s.addrD ∧ t.crcOrder = s.crcOrder) ∧
    (t.keyLen = s.keyLen ∧ t.keyW = s.keyW ∧ t.ndesc = s.ndesc ∧ t.desc = s.desc) ∧
    (t.tbl = s.tbl ∧ t.initDone = s.initDone) ∧
    (t.faultBusMisuse = s.faultBusMisuse ∧ t.faultHostHazard = s.faultHostHazard ∧ t.tape = s.tape) ∧
    (t.hostProg = s.hostProg ∧ t.hostPc = s.hostPc ∧ t.readData = s.readData ∧ t.turns = s.turns)

/-- R54, R86: which command writes which result. -/
def Obligations.OnlyTheNamedCommandsWriteAResult : Prop :=
  ∀ (i : Instr) (s t : State), exec i s = .next t →
    (i ≠ .decodeHdr → t.hdrTid = s.hdrTid ∧ t.hdrProto = s.hdrProto ∧ t.hdrLen = s.hdrLen ∧ t.hdrUnit = s.hdrUnit ∧
      t.hdrMsgid = s.hdrMsgid ∧ t.bodyNeed = s.bodyNeed ∧ t.bodyComplete = s.bodyComplete) ∧
    ((∀ c, i ≠ .crcVerify c) → t.crcMatch = s.crcMatch) ∧
    (i ≠ .classify → t.kind = s.kind) ∧
    (i ≠ .parse → t.recs = s.recs) ∧
    (i ≠ .buildHdr → i ≠ .buildAck → i ≠ .pingEcho → t.outLen = s.outLen) ∧
    ((∀ c, i ≠ .crc c) → (∀ c, i ≠ .crcAppend c) → (∀ c, i ≠ .crcVerify c) → i ≠ .buildAck →
      t.crcResult = s.crcResult) ∧
    ((∀ c, i ≠ .crcAppend c) → i ≠ .deobf → i ≠ .buildHdr → i ≠ .buildAck → i ≠ .pingEcho → t.dmem = s.dmem)

/-- R194, R195: with no turn laid down, a pending command has completed after one step, or after two where the table was
still to be built. That the Engine moves first once no turn is laid down is the model's choice (assumption log 1). -/
def Obligations.PendingCommandSoonCompletes : Prop :=
  ∀ s : State, s.busy = true → s.turns = [] →
    (s.initDone = true → ∃ t, step s = .next t ∧ t.done = true ∧ t.busy = false) ∧
    (s.initDone = false → ∃ t u, step s = .next t ∧ t.busy = true ∧ step t = .next u ∧ u.done = true ∧ u.busy = false)

/-- R20, R92: while the Engine has no step, the Host executes the operation at its place. -/
def Obligations.HostExecutesItsProgram : Prop :=
  ∀ s : State, s.initDone = true → s.busy = false → s.turns = [] →
    (∀ acc, s.hostProg[s.hostPc]? = some (.bus acc) → step s = .next { hostAccess acc s with hostPc := s.hostPc + 1 }) ∧
    (∀ bit on target, s.hostProg[s.hostPc]? = some (.branchIf bit on target) →
      step s = .next { s with hostPc := if s.readData.getLsbD bit = on then target else s.hostPc + 1 }) ∧
    (∀ target, s.hostProg[s.hostPc]? = some (.jump target) → step s = .next { s with hostPc := target }) ∧
    (s.hostProg[s.hostPc]? = some .halt ∨ s.hostProg[s.hostPc]? = none → step s = .next s)

/-- R92, R190 to R192: where the Host stands at a `run` of a command, four steps take it past the `wait`, and the instance is
as the command leaves it. The number of steps rests on the model's turn order (assumption log 1). -/
def Obligations.RunPassesItsWait : Prop :=
  ∀ (s : State) (i : Instr) (labels : Nat → Nat),
    s.initDone = true → s.busy = false → s.tainted = false → s.turns = [] →
    (∀ k op, (expandStmt labels s.hostPc (.run i))[k]? = some op → s.hostProg[s.hostPc + k]? = some op) →
    ∃ t, exec i { issue (encode i) s with hostPc := s.hostPc + 1 } = .next t ∧
      Host.Core.run core 4 s = .next { t with
        hostPc := s.hostPc + 3, readData := statusWord t, draws := t.draws + 1 }

/-- No step stops the machine. -/
def Obligations.NoStepFaultsOrRefuses : Prop := ∀ s : State, ∃ t, step s = .next t

/-! ### NOP and the checksum engine -/

/-- R193. -/
def Obligations.NopOnlyCompletes : Prop :=
  decode 0x00000000#32 = .command .nop ∧ decode 0x00000100#32 = .illegal .continueNotAllowed ∧
  ∀ s : State, exec .nop s = .next { s with errcode := 0x00#8, err := false, pending := none, done := true }

/-- R103: CRC_RESULT becomes the checksum of the range, or the range is refused. -/
def Obligations.CrcOfARange : Prop :=
  decode 0x00000001#32 = .command (.crc false) ∧ decode 0x00000101#32 = .command (.crc true) ∧
  ∀ (c : Bool) (s : State),
    (s.addrA.toNat + s.lenA.toNat ≤ 2048 →
      exec (.crc c) s = .next (completeOk { s with
        crcResult := crc16 s.tbl (if c then s.crcResult else 0xFFFF#16) (memRead s 0 s.addrA.toNat s.lenA.toNat)
        draws := s.draws + 1 })) ∧
    (2048 < s.addrA.toNat + s.lenA.toNat → exec (.crc c) s = .next (raiseError .badRange s))

/-- R104: CRC_APPEND also stores the two checksum bytes, in the order of CONFIG.CRC_ORDER, and no other byte. -/
def Obligations.CrcAppendStoresTheChecksum : Prop :=
  decode 0x00000002#32 = .command (.crcAppend false) ∧ decode 0x00000102#32 = .command (.crcAppend true) ∧
  ∀ (c : Bool) (s : State),
    let a := s.addrA.toNat
    let n := s.lenA.toNat
    let v := crc16 s.tbl (if c then s.crcResult else 0xFFFF#16) (memRead s 0 a n)
    (a + (n + 2) ≤ 2048 → ∃ t, exec (.crcAppend c) s = .next t ∧
      t = completeOk { s with dmem := t.dmem, crcResult := v, draws := s.draws + 1 } ∧
      t.dmem.lookup (a + n) = some (if s.crcOrder then loByte v else hiByte v) ∧
      t.dmem.lookup (a + n + 1) = some (if s.crcOrder then hiByte v else loByte v) ∧
      sameOutside s.dmem t.dmem (a + n) 2) ∧
    (2048 < a + (n + 2) → exec (.crcAppend c) s = .next (raiseError .badRange s))

/-- R105: CRC_VERIFY writes CRC_MATCH and CRC_RESULT; a mismatch is no error. -/
def Obligations.CrcVerifyComparesTheChecksum : Prop :=
  decode 0x00000003#32 = .command (.crcVerify false) ∧ decode 0x00000103#32 = .command (.crcVerify true) ∧
  ∀ (c : Bool) (s : State),
    let a := s.addrA.toNat
    let n := s.lenA.toNat
    let v := crc16 s.tbl (if c then s.crcResult else 0xFFFF#16) (memRead s 0 a n)
    (a + (n + 2) ≤ 2048 → ∃ t, exec (.crcVerify c) s = .next t ∧
      t = completeOk { s with crcMatch := t.crcMatch, crcResult := v, draws := s.draws + 2 } ∧
      (t.crcMatch = true ↔
        s.sees 1 (a + n) = (if s.crcOrder then loByte v else hiByte v).toNat ∧
        s.sees 1 (a + n + 1) = (if s.crcOrder then hiByte v else loByte v).toNat)) ∧
    (2048 < a + (n + 2) → exec (.crcVerify c) s = .next (raiseError .badRange s))

/-- R100: every entry of the table is eight turns of the shift loop, written here on natural numbers. -/
def Obligations.TableEntriesFollowTheShiftLoop : Prop :=
  ∀ v : Fin 256, crcTable[v].toNat =
    (fun c : Nat => if c % 2 = 1 then (c / 2) ^^^ 0xA001 else c / 2)^[8] v.val

/-- R100, R101: the table-driven checksum is the bit-serial one, for every seed and every byte sequence. The shift loop and
the XOR combination are ones the spec supplies from general knowledge (93_implementation_defined.md G1, G2; assumption
log 12). -/
def Obligations.TableChecksumIsBitSerial : Prop :=
  ∀ (seed : Half) (bs : List Byte),
    crc16 crcTable seed bs = bs.foldl (fun acc b => crcShifts 8 (acc ^^^ b.setWidth 16)) seed

/-- R106: the same bytes under the same table and seed give the same CRC_RESULT, wherever they stand and whatever else
the states hold. -/
def Obligations.ChecksumDependsOnBytesAndSeedAlone : Prop :=
  ∀ (c : Bool) (s s' : State) (bs : List Byte),
    s.addrA.toNat + (bs.length + 2) ≤ 2048 → s'.addrA.toNat + (bs.length + 2) ≤ 2048 →
    s.lenA.toNat = bs.length → s'.lenA.toNat = bs.length →
    holdsBytes s.dmem s.addrA.toNat bs → holdsBytes s'.dmem s'.addrA.toNat bs →
    s.tbl = s'.tbl → (c = true → s.crcResult = s'.crcResult) →
    ∃ t t' u u' v v', exec (.crc c) s = .next t ∧ exec (.crc c) s' = .next t' ∧
      exec (.crcAppend c) s = .next u ∧ exec (.crcAppend c) s' = .next u' ∧
      exec (.crcVerify c) s = .next v ∧ exec (.crcVerify c) s' = .next v' ∧
      t.crcResult = t'.crcResult ∧ u.crcResult = t.crcResult ∧ u'.crcResult = t.crcResult ∧
      v.crcResult = t.crcResult ∧ v'.crcResult = t.crcResult

/-- R106: a CRC over one range followed by a CRC with C = 1 over the next is the CRC over both. -/
def Obligations.ChecksumContinuesOverTwoRanges : Prop :=
  ∀ (c : Bool) (s : State) (a n m : Half),
    a.toNat + n.toNat + m.toNat ≤ 2048 → rangeWritten s.dmem a.toNat (n.toNat + m.toNat) →
    ∃ t u v, exec (.crc c) { s with addrA := a, lenA := n } = .next t ∧
      exec (.crc true) { t with addrA := a + n, lenA := m } = .next u ∧
      exec (.crc c) { s with addrA := a, lenA := n + m } = .next v ∧
      u.crcResult = v.crcResult

/-- R104, R105: CRC_VERIFY accepts what CRC_APPEND wrote, and rejects it once one of the two bytes is another. -/
def Obligations.VerifyAcceptsWhatAppendWrote : Prop :=
  ∀ s : State, s.addrA.toNat + (s.lenA.toNat + 2) ≤ 2048 → rangeWritten s.dmem s.addrA.toNat s.lenA.toNat →
    ∃ t u, exec (.crcAppend false) s = .next t ∧ exec (.crcVerify false) t = .next u ∧ u.crcMatch = true ∧
      ∀ (x : Nat) (v : Byte), s.addrA.toNat + s.lenA.toNat ≤ x → x < s.addrA.toNat + s.lenA.toNat + 2 →
        t.dmem.lookup x ≠ some v →
        ∃ u', exec (.crcVerify false) { t with dmem := t.dmem.store x v } = .next u' ∧ u'.crcMatch = false ∧
          u'.err = false

/-! ### Frame decoder and classifier -/

/-- R120, R121: DECODE_HDR reads the five fields at their offsets and counts what is missing; its checks come in order,
the two length checks first. -/
def Obligations.DecodeHdrReadsTheHeader : Prop :=
  decode 0x00000010#32 = .command .decodeHdr ∧
  ∀ s : State,
    let a := s.addrA.toNat
    let n := s.lenA.toNat
    (9 ≤ n → n ≤ 300 → a + n ≤ 2048 → ∃ t, exec .decodeHdr s = .next t ∧
      t = completeOk { s with
        hdrTid := t.hdrTid, hdrProto := t.hdrProto, hdrLen := t.hdrLen, hdrUnit := t.hdrUnit, hdrMsgid := t.hdrMsgid
        bodyNeed := t.bodyNeed, bodyComplete := t.bodyComplete, draws := s.draws + 1 } ∧
      t.hdrTid.toNat = s.sees 0 a * 256 + s.sees 0 (a + 1) ∧
      t.hdrProto.toNat = s.sees 0 (a + 2) * 256 + s.sees 0 (a + 3) ∧
      t.hdrLen.toNat = s.sees 0 (a + 4) * 256 + s.sees 0 (a + 5) ∧
      t.hdrUnit.toNat = s.sees 0 (a + 6) ∧
      t.hdrMsgid.toNat = s.sees 0 (a + 7) ∧
      t.bodyNeed.toNat = 6 + t.hdrLen.toNat - n ∧
      (t.bodyComplete = true ↔ 6 + t.hdrLen.toNat ≤ n)) ∧
    (n < 9 → exec .decodeHdr s = .next (raiseError .frameTooShort s)) ∧
    (300 < n → exec .decodeHdr s = .next (raiseError .frameTooLong s)) ∧
    (9 ≤ n → n ≤ 300 → 2048 < a + n → exec .decodeHdr s = .next (raiseError .badRange s))

/-- R122: once BODY_NEED more bytes are in the buffer, and not before, DECODE_HDR reports the frame complete. -/
def Obligations.MissingBytesCompleteTheFrame : Prop :=
  ∀ (s t : State) (m : Half),
    rangeWritten s.dmem s.addrA.toNat 8 → exec .decodeHdr s = .next t → t.err = false →
    s.lenA.toNat ≤ m.toNat → m.toNat ≤ 300 → s.addrA.toNat + m.toNat ≤ 2048 →
    ∃ u, exec .decodeHdr { t with lenA := m } = .next u ∧ u.err = false ∧
      (u.bodyComplete = true ↔ s.lenA.toNat + t.bodyNeed.toNat ≤ m.toNat)

/-- R124, R125: CLASSIFY for a vendor protocol writes KIND by the table, and for every other protocol ends with
UNSUPPORTED_PROTOCOL. -/
def Obligations.ClassifyByTheTable : Prop :=
  decode 0x00000011#32 = .command .classify ∧
  ∀ s : State,
    let m := s.hdrMsgid.toNat
    let len := s.hdrLen.toNat
    (s.hdrProto.toNat = 5 ∨ s.hdrProto.toNat = 6 → ∃ t, exec .classify s = .next t ∧
      t = completeOk { s with kind := t.kind } ∧
      (t.kind.code = 1#3 ↔ m = 0x04 ∧ len = 257) ∧
      (t.kind.code = 5#3 ↔ m = 0x03 ∧ len = 257) ∧
      (t.kind.code = 3#3 ↔ m = 0x16 ∧ (len = 12 ∨ len = 32)) ∧
      (t.kind.code = 6#3 ↔ m = 0x50 ∧ len = 257) ∧
      (t.kind.code = 7#3 ↔ m = 0x19) ∧
      t.kind.code ≠ 2#3 ∧ t.kind.code ≠ 4#3) ∧
    (s.hdrProto.toNat ≠ 5 → s.hdrProto.toNat ≠ 6 → exec .classify s = .next (raiseError .unsupportedProtocol s))

/-- R126: a vendor header that no row of the table matches is classified unknown, without an error. -/
def Obligations.UnknownIsNoError : Prop :=
  ∀ s : State, (s.hdrProto = 5#16 ∨ s.hdrProto = 6#16) → kindOf s.hdrMsgid s.hdrLen.toNat = .unknown →
    ∃ t, exec .classify s = .next t ∧ t.errcode = 0x00#8 ∧ t.err = false ∧ t.kind.code = 0#3

/-! ### Deobfuscator -/

/-- R140: DEOBF writes the source bytes XORed with the cycled key, and no other byte; its checks come in order. -/
def Obligations.DeobfXorsWithTheCycledKey : Prop :=
  decode 0x00000020#32 = .command .deobf ∧
  ∀ s : State,
    let a := s.addrA.toNat
    let d := s.addrD.toNat
    let n := s.lenA.toNat
    let k := s.keyLen.toNat
    (1 ≤ k → k ≤ 16 → a + n ≤ 2048 → d + n ≤ 2048 → (d = a ∨ ¬meets a n d n) → ∃ t, exec .deobf s = .next t ∧
      t = completeOk { s with dmem := t.dmem, draws := s.draws + 1 } ∧
      (∀ i < n, t.dmem.lookup (d + i) = some (s.dmem.readByte (s.draw 0) (a + i) ^^^ keyByte s (i % k))) ∧
      sameOutside s.dmem t.dmem d n) ∧
    (k = 0 ∨ 16 < k → exec .deobf s = .next (raiseError .badKey s)) ∧
    (1 ≤ k → k ≤ 16 → (2048 < a + n ∨ 2048 < d + n) → exec .deobf s = .next (raiseError .badRange s)) ∧
    (1 ≤ k → k ≤ 16 → a + n ≤ 2048 → d + n ≤ 2048 → d ≠ a → meets a n d n →
      exec .deobf s = .next (raiseError .overlap s))

/-- R142: two DEOBFs with the same key give the bytes back. -/
def Obligations.DeobfTwiceGivesTheBytesBack : Prop :=
  ∀ (s : State) (e : Half),
    let a := s.addrA.toNat
    let d := s.addrD.toNat
    let n := s.lenA.toNat
    1 ≤ s.keyLen.toNat → s.keyLen.toNat ≤ 16 → a + n ≤ 2048 → d + n ≤ 2048 → e.toNat + n ≤ 2048 →
    (d = a ∨ ¬meets a n d n) → (e.toNat = d ∨ ¬meets d n e.toNat n) → rangeWritten s.dmem a n →
    ∃ t u, exec .deobf s = .next t ∧ exec .deobf { t with addrA := s.addrD, addrD := e } = .next u ∧
      ∀ i < n, u.dmem.lookup (e.toNat + i) = s.dmem.lookup (a + i)

/-- R141: an in-place DEOBF in two pieces split at a multiple of KEY_LEN is one whole DEOBF. -/
def Obligations.DeobfInPiecesAtKeyMultiples : Prop :=
  ∀ (s : State) (a n m : Half) (q : Nat),
    1 ≤ s.keyLen.toNat → s.keyLen.toNat ≤ 16 → n.toNat = q * s.keyLen.toNat →
    a.toNat + n.toNat + m.toNat ≤ 2048 → rangeWritten s.dmem a.toNat (n.toNat + m.toNat) →
    ∃ t u v, exec .deobf { s with addrA := a, addrD := a, lenA := n } = .next t ∧
      exec .deobf { t with addrA := a + n, addrD := a + n, lenA := m } = .next u ∧
      exec .deobf { s with addrA := a, addrD := a, lenA := n + m } = .next v ∧
      ∀ x, u.dmem.lookup x = v.dmem.lookup x

/-- R42: a write to KEY_Wj sets KEY[4j .. 4j+3], most significant byte first, and no other key byte. -/
def Obligations.KeyWordsAreBigEndian : Prop :=
  ∀ (s : State) (j : Fin 4) (v : Word) (i : Nat), i < 16 →
    keyByte (writeReg (.keyW j) v s) i =
      if i = 4 * j.val then v.extractLsb' 24 8
      else if i = 4 * j.val + 1 then v.extractLsb' 16 8
      else if i = 4 * j.val + 2 then v.extractLsb' 8 8
      else if i = 4 * j.val + 3 then v.extractLsb' 0 8
      else keyByte s i

/-! ### Record parser -/

/-- R151: REC_SIZE is the end of the furthest field in use, 0 where there is none, and fits its 18 bits. -/
def Obligations.RecSizeIsTheFurthestEnd : Prop :=
  ∀ s : State,
    let fin (i : Nat) : Nat :=
      let d := s.desc.toList.getD i 0#18
      (d.extractLsb' 0 16).toNat + (if (d.extractLsb' 16 2).toNat = 1 then 2 else if (d.extractLsb' 16 2).toNat = 2 then 4 else 0)
    (∀ i < min s.ndesc.toNat 64, fin i ≤ s.recSize) ∧
    (s.recSize = 0 ∨ ∃ i < min s.ndesc.toNat 64, s.recSize = fin i) ∧
    (readReg s .recSize).toNat = s.recSize ∧ s.recSize < 2 ^ 18

/-- R151, R154: for a contiguous layout of legal fields with the padding region inside it, REC_SIZE is the sum of the field
widths plus 12, and no field touches the 12 padding bytes. -/
def Obligations.PaddedLayoutIsSteppedOver : Prop :=
  ∀ (s : State) (before after : List Nat), after ≠ [] → (∀ wc ∈ before ++ after, wc = 1 ∨ wc = 2) →
    before.length + after.length ≤ 64 → s.ndesc.toNat = before.length + after.length →
    (∀ i (f : Nat × Nat), (paddedLayout before after)[i]? = some f → (s.desc.toList.getD i 0#18).setWidth 32 = descWord f) →
    s.recSize = fieldsSize (before ++ after) + 12 ∧
    ∀ f ∈ paddedLayout before after,
      f.1 + fieldWidth f.2 ≤ fieldsSize before ∨ fieldsSize before + 12 ≤ f.1

/-- R152, R153: PARSE unpacks the fields in use as unsigned big-endian numbers and leaves the other entries; its checks
come in order. -/
def Obligations.ParseUnpacksTheFields : Prop :=
  decode 0x00000030#32 = .command .parse ∧
  ∀ s : State,
    let a := s.addrA.toNat
    let n := s.lenA.toNat
    let nd := s.ndesc.toNat
    let w (i : Nat) : Nat := ((s.desc.toList.getD i 0#18).extractLsb' 16 2).toNat
    let at_ (i : Nat) : Nat := a + 71 + ((s.desc.toList.getD i 0#18).extractLsb' 0 16).toNat
    let legal : Prop := nd ≤ 64 ∧ ∀ i < nd, w i = 1 ∨ w i = 2
    (legal → a + n ≤ 2048 → 71 + s.recSize ≤ n → ∃ t, exec .parse s = .next t ∧
      t = completeOk { s with recs := t.recs, draws := s.draws + nd } ∧
      ∀ i : Fin 64,
        (i.val < nd → w i = 1 → t.recs[i].toNat = s.sees i (at_ i) * 256 + s.sees i (at_ i + 1)) ∧
        (i.val < nd → w i = 2 → t.recs[i].toNat =
          ((s.sees i (at_ i) * 256 + s.sees i (at_ i + 1)) * 256 + s.sees i (at_ i + 2)) * 256 + s.sees i (at_ i + 3)) ∧
        (nd ≤ i.val → t.recs[i] = s.recs[i])) ∧
    (¬legal → exec .parse s = .next (raiseError .badDesc s)) ∧
    (legal → 2048 < a + n → exec .parse s = .next (raiseError .badRange s)) ∧
    (legal → a + n ≤ 2048 → n < 71 + s.recSize → exec .parse s = .next (raiseError .truncatedRecord s))

/-- R152: a PARSE that succeeds reads only the bytes from offset 71 to offset 71 + REC_SIZE of the body, which lie inside
the body: two bodies that agree there, all written, give the same REC. -/
def Obligations.ParseReadsOnlyTheRecord : Prop :=
  ∀ (s s' t t' : State),
    s'.addrA = s.addrA → s'.lenA = s.lenA → s'.ndesc = s.ndesc → s'.desc = s.desc → s'.recs = s.recs →
    (∀ x, s.addrA.toNat + 71 ≤ x → x < s.addrA.toNat + 71 + s.recSize →
      s.dmem.written x = true ∧ s'.dmem.lookup x = s.dmem.lookup x) →
    exec .parse s = .next t → exec .parse s' = .next t' → t.err = false →
    t'.recs = t.recs ∧ t'.errcode = t.errcode ∧
    s.addrA.toNat + 71 + s.recSize ≤ s.addrA.toNat + s.lenA.toNat

/-! ### Frame builder -/

/-- R170, R171: BUILD_HDR writes the eight header bytes with LEN_A as the length field, and no other byte. -/
def Obligations.BuildHdrWritesTheHeader : Prop :=
  decode 0x00000040#32 = .command .buildHdr ∧
  ∀ s : State,
    let d := s.addrD.toNat
    (d + 8 ≤ 2048 → ∃ t, exec .buildHdr s = .next t ∧
      t = completeOk { s with dmem := t.dmem, outLen := 8#16 } ∧
      holdsBytes t.dmem d
        [hiByte s.hdrTid, loByte s.hdrTid, hiByte s.hdrProto, loByte s.hdrProto, hiByte s.lenA, loByte s.lenA,
          s.hdrUnit, s.hdrMsgid] ∧
      sameOutside s.dmem t.dmem d 8) ∧
    (2048 < d + 8 → exec .buildHdr s = .next (raiseError .badRange s))

/-- R173: BUILD_ACK writes header, body and checksum, and no other byte; its checks come in order. -/
def Obligations.BuildAckWritesTheFrame : Prop :=
  decode 0x00000041#32 = .command .buildAck ∧
  ∀ s : State,
    let a := s.addrA.toNat
    let d := s.addrD.toNat
    let n := s.lenA.toNat
    let len := s.lenA + 2#16
    let f : List Byte :=
      [hiByte s.hdrTid, loByte s.hdrTid, hiByte s.hdrProto, loByte s.hdrProto, hiByte len, loByte len,
        s.hdrUnit, s.hdrMsgid] ++ memRead s 0 a n
    let c := crc16 s.tbl 0xFFFF#16 f
    (a + n ≤ 2048 → d + (n + 10) ≤ 2048 → (d + 8 = a ∨ ¬meets a n d (n + 10)) →
      ∃ t, exec .buildAck s = .next t ∧
        t = completeOk { s with dmem := t.dmem, crcResult := c, outLen := s.lenA + 10#16, draws := s.draws + 1 } ∧
        holdsBytes t.dmem d (f ++ if s.crcOrder then [loByte c, hiByte c] else [hiByte c, loByte c]) ∧
        sameOutside s.dmem t.dmem d (n + 10) ∧ len.toNat = n + 2 ∧ t.outLen.toNat = n + 10) ∧
    (2048 < a + n ∨ 2048 < d + (n + 10) → exec .buildAck s = .next (raiseError .badRange s)) ∧
    (a + n ≤ 2048 → d + (n + 10) ≤ 2048 → d + 8 ≠ a → meets a n d (n + 10) →
      exec .buildAck s = .next (raiseError .overlap s))

/-- R174: PING_ECHO writes the header with the same declared length and the payload, no checksum, and no other byte; its
checks come in order. -/
def Obligations.PingEchoRepeatsThePayload : Prop :=
  decode 0x00000042#32 = .command .pingEcho ∧
  ∀ s : State,
    let a := s.addrA.toNat
    let d := s.addrD.toNat
    let len := s.hdrLen.toNat
    (2 ≤ len → a + (len - 2) ≤ 2048 → d + (len + 6) ≤ 2048 → (d + 8 = a ∨ ¬meets a (len - 2) d (len + 6)) →
      ∃ t, exec .pingEcho s = .next t ∧
        t = completeOk { s with dmem := t.dmem, outLen := s.hdrLen + 6#16, draws := s.draws + 1 } ∧
        holdsBytes t.dmem d
          ([hiByte s.hdrTid, loByte s.hdrTid, hiByte s.hdrProto, loByte s.hdrProto, hiByte s.hdrLen, loByte s.hdrLen,
            s.hdrUnit, s.hdrMsgid] ++ memRead s 0 a (len - 2)) ∧
        sameOutside s.dmem t.dmem d (len + 6) ∧ t.outLen.toNat = len + 6) ∧
    (len < 2 → exec .pingEcho s = .next (raiseError .badLength s)) ∧
    (2 ≤ len → (2048 < a + (len - 2) ∨ 2048 < d + (len + 6)) → exec .pingEcho s = .next (raiseError .badRange s)) ∧
    (2 ≤ len → a + (len - 2) ≤ 2048 → d + (len + 6) ≤ 2048 → d + 8 ≠ a → meets a (len - 2) d (len + 6) →
      exec .pingEcho s = .next (raiseError .overlap s))

/-- R173, R105: a CRC_VERIFY over the header and body of an acknowledgement just built finds its checksum right. -/
def Obligations.AcknowledgementVerifies : Prop :=
  ∀ (s t : State), exec .buildAck s = .next t → t.err = false →
    ∃ u, exec (.crcVerify false) { t with addrA := s.addrD, lenA := s.lenA + 8#16 } = .next u ∧
      u.err = false ∧ u.crcMatch = true ∧ u.crcResult = t.crcResult

/-- R170, R120: DECODE_HDR reads back the header that BUILD_ACK wrote, and finds the frame complete. -/
def Obligations.AcknowledgementDecodesBack : Prop :=
  ∀ (s t : State), exec .buildAck s = .next t → t.err = false → 1 ≤ s.lenA.toNat → s.lenA.toNat + 8 ≤ 300 →
    ∃ u, exec .decodeHdr { t with addrA := s.addrD, lenA := s.lenA + 8#16 } = .next u ∧ u.err = false ∧
      u.hdrTid = s.hdrTid ∧ u.hdrProto = s.hdrProto ∧ u.hdrUnit = s.hdrUnit ∧ u.hdrMsgid = s.hdrMsgid ∧
      u.hdrLen.toNat = s.lenA.toNat + 2 ∧ u.bodyComplete = true ∧ u.bodyNeed = 0#17

/-! ### The host window -/

/-- R52: the RO registers, by name; a write to one changes nothing at any time, and the bits of a write above a register's
field change nothing. CMD is the one WO register (R23), and the others are RW. -/
def Obligations.ReadOnlyBitsIgnoreWrites : Prop :=
  (∀ r : RegName, regAccess r = .readOnly ↔
    r ∈ ([.id, .status, .errcode, .crcResult, .outLen, .bodyNeed, .kind, .recSize, .recBase, .memSize] : List RegName) ∨
      (∃ i, r = .recEntry i) ∨ ∃ i, r = .tbl i) ∧
  (∀ r : RegName, regAccess r = .writeOnly ↔ r = .cmd) ∧
  ∀ (s : State) (r : RegName) (v : Word),
    (regAccess r = .readOnly →
      hostAccess { offset := BitVec.ofNat 13 (regOffset r), width := 32, value := some v } s = s) ∧
    (regAccess r = .readWrite → s.busy = false →
      hostAccess { offset := BitVec.ofNat 13 (regOffset r), width := 32, value := some v } s =
        hostAccess { offset := BitVec.ofNat 13 (regOffset r), width := 32, value := some (inField r v) } s)

/-- R23, R71: an RW register reads back the bits of its field last written, and the write only stores the value: every other
register reads as before, but for what is computed from the register written (STATUS.LEN_WF from HDR_LEN, REC_SIZE from NDESC
and DESC); FAULTS, the hidden state and DMEM are as before. The write at each offset goes to the state the commands read
under that register's name (R28 to R31, R36 to R44). -/
def Obligations.RegistersHoldWhatIsWritten : Prop :=
  (∀ (s : State) (v : Word), s.busy = false →
    let wr (off : Nat) : State := hostAccess { offset := BitVec.ofNat 13 off, width := 32, value := some v } s
    (wr 0x010 = { s with addrA := v.setWidth 16 } ∧ wr 0x014 = { s with lenA := v.setWidth 16 } ∧
      wr 0x018 = { s with addrD := v.setWidth 16 } ∧ wr 0x01C = { s with crcOrder := v.getLsbD 0 }) ∧
    (wr 0x030 = { s with hdrTid := v.setWidth 16 } ∧ wr 0x034 = { s with hdrProto := v.setWidth 16 } ∧
      wr 0x038 = { s with hdrLen := v.setWidth 16 } ∧ wr 0x03C = { s with hdrUnit := v.setWidth 8 } ∧
      wr 0x040 = { s with hdrMsgid := v.setWidth 8 }) ∧
    (wr 0x044 = { s with keyLen := v.setWidth 5 } ∧ wr 0x048 = { s with ndesc := v.setWidth 7 }) ∧
    (∀ j : Fin 4, wr (0x060 + 4 * j.val) = { s with keyW := s.keyW.set j v }) ∧
    ∀ i : Fin 64, wr (0x100 + 4 * i.val) = { s with desc := s.desc.set i (v.setWidth 18) }) ∧
  ∀ (s : State) (r : RegName) (v : Word), regAccess r = .readWrite → s.busy = false →
    let t := hostAccess { offset := BitVec.ofNat 13 (regOffset r), width := 32, value := some v } s
    (hostAccess { offset := BitVec.ofNat 13 (regOffset r), width := 32, value := none } t).readData = inField r v ∧
    (∀ r', r' ≠ r → r' ≠ .status → r' ≠ .recSize → readReg t r' = readReg s r') ∧
    (∀ k, k ≠ 4 → (readReg t .status).getLsbD k = (readReg s .status).getLsbD k) ∧
    (r ≠ .hdrLen → readReg t .status = readReg s .status) ∧
    (r ≠ .ndesc → (∀ i, r ≠ .desc i) → readReg t .recSize = readReg s .recSize) ∧
    (t.done = s.done ∧ t.err = s.err ∧ t.bodyComplete = s.bodyComplete ∧ t.crcMatch = s.crcMatch) ∧
    (t.faultBusMisuse = s.faultBusMisuse ∧ t.faultHostHazard = s.faultHostHazard) ∧
    t.initDone = s.initDone ∧ t.dmem = s.dmem ∧ t.pending = s.pending

/-- R23 to R49: what the Host reads of every register but STATUS, while nothing is pending: the state the commands read and
write under that register's name, the constants, and 0 for CMD. -/
def Obligations.ResultRegistersReadOut : Prop :=
  ∀ s : State, s.busy = false →
    let rd (off : Nat) : Word :=
      (hostAccess { offset := BitVec.ofNat 13 off, width := 32, value := none } s).readData
    (rd 0x000 = 0x47504501#32 ∧ rd 0x008 = 0#32 ∧ rd 0x050 = 71#32 ∧ rd 0x054 = 2048#32) ∧
    ((rd 0x00C).toNat = s.errcode.toNat ∧ (rd 0x020).toNat = s.crcResult.toNat ∧ (rd 0x024).toNat = s.outLen.toNat ∧
      (rd 0x028).toNat = s.bodyNeed.toNat ∧ (rd 0x04C).toNat = s.recSize) ∧
    ((s.kind = .unknown ↔ rd 0x02C = 0#32) ∧ (s.kind = .registersReport ↔ rd 0x02C = 1#32) ∧
      (s.kind = .registersAck ↔ rd 0x02C = 2#32) ∧ (s.kind = .ping ↔ rd 0x02C = 3#32) ∧
      (s.kind = .pingAck ↔ rd 0x02C = 4#32) ∧ (s.kind = .announce ↔ rd 0x02C = 5#32) ∧
      (s.kind = .rawConfigBlock ↔ rd 0x02C = 6#32) ∧ (s.kind = .identifyResponse ↔ rd 0x02C = 7#32)) ∧
    ((rd 0x010).toNat = s.addrA.toNat ∧ (rd 0x014).toNat = s.lenA.toNat ∧ (rd 0x018).toNat = s.addrD.toNat ∧
      (rd 0x01C).toNat = if s.crcOrder then 1 else 0) ∧
    ((rd 0x030).toNat = s.hdrTid.toNat ∧ (rd 0x034).toNat = s.hdrProto.toNat ∧ (rd 0x038).toNat = s.hdrLen.toNat ∧
      (rd 0x03C).toNat = s.hdrUnit.toNat ∧ (rd 0x040).toNat = s.hdrMsgid.toNat) ∧
    ((rd 0x044).toNat = s.keyLen.toNat ∧ (rd 0x048).toNat = s.ndesc.toNat) ∧
    (∀ j : Fin 4, rd (0x060 + 4 * j.val) = s.keyW[j]) ∧
    (∀ i : Fin 64, (rd (0x100 + 4 * i.val)).toNat = s.desc[i].toNat) ∧
    (∀ i : Fin 64, rd (0x200 + 4 * i.val) = s.recs[i]) ∧
    (∀ i : Fin 256, (s.initDone = true → (rd (0x400 + 4 * i.val)).toNat = s.tbl[i].toNat) ∧
      (rd (0x400 + 4 * i.val)).toNat < 65536)

/-- R63: an unassigned offset reads 0 and ignores writes, in both parts of the window. That it also reads 0 while a command
is pending, when R236 lets the Host rely on STATUS alone, is the model's reading (assumption log 8). -/
def Obligations.UnassignedOffsetsReadZero : Prop :=
  ∀ (s : State) (off : WinOff) (v : Word),
    (off.toNat < 0x1000 → off.toNat % 4 = 0 → (∀ r : RegName, regOffset r ≠ off.toNat) →
      (hostAccess { offset := off, width := 32, value := none } s).readData = 0#32 ∧
      hostAccess { offset := off, width := 32, value := some v } s = s) ∧
    (0x1800 ≤ off.toNat →
      (hostAccess { offset := off, width := 8, value := none } s).readData = 0#32 ∧
      hostAccess { offset := off, width := 8, value := some v } s = s)

/-- R64: an access of another width or alignment is recorded in FAULTS and changes no other state of the instance; what a
misused read hands to the Host (`readData`, `draws`) is not the instance's state (assumption log 7). -/
def Obligations.MisuseIsRecordedAndChangesNothingElse : Prop :=
  ∀ (s : State) (acc : BusAccess),
    (acc.offset.toNat < 0x1000 ∧ (acc.width ≠ 32 ∨ acc.offset.toNat % 4 ≠ 0)) ∨
      (0x1000 ≤ acc.offset.toNat ∧ acc.width ≠ 8) →
    let t := hostAccess acc s
    t.faultBusMisuse = true ∧ t = { s with faultBusMisuse := true, readData := t.readData, draws := t.draws }

/-- R71: a Host read has no side effect on the instance, whatever it reads. What the spec leaves unspecified is read as a
free value of that read: every register but STATUS and every DMEM byte while a command is pending (R53, R236), and TBL before
READY = 1 (R49). That these are the free values named here, of 32, 8 and 16 bits, is the model's choice (assumption logs 8
and 4). -/
def Obligations.HostReadsHaveNoSideEffect : Prop :=
  (∀ s : State, s.busy = true →
    (∀ r : RegName, r ≠ .status →
      (hostAccess { offset := BitVec.ofNat 13 (regOffset r), width := 32, value := none } s).readData =
        Config.freeWord s.tape s.draws) ∧
    ∀ x < 2048, (hostAccess { offset := BitVec.ofNat 13 (0x1000 + x), width := 8, value := none } s).readData =
      ((Config.freeWord s.tape s.draws).setWidth 8).setWidth 32) ∧
  (∀ (s : State) (i : Fin 256), s.busy = false → s.initDone = false →
    (hostAccess { offset := BitVec.ofNat 13 (0x400 + 4 * i.val), width := 32, value := none } s).readData =
      ((Config.freeWord s.tape s.draws).setWidth 16).setWidth 32) ∧
  ∀ (s : State) (off : WinOff) (width : Nat), BusAccess.allowed { offset := off, width := width, value := none } = true →
    let t := hostAccess { offset := off, width := width, value := none } s
    t = { s with readData := t.readData, draws := t.draws }

/-- R25, R53, R123: a STATUS read returns the STATUS bits at every moment, also while BUSY = 1. -/
def Obligations.StatusReadsItsBits : Prop :=
  ∀ s : State,
    let v := (hostAccess { offset := 0x004#13, width := 32, value := none } s).readData
    v.getLsbD 0 = s.initDone ∧ v.getLsbD 1 = s.pending.isSome ∧ v.getLsbD 2 = s.done ∧ v.getLsbD 3 = s.err ∧
    (v.getLsbD 4 = true ↔ 2 ≤ s.hdrLen.toNat ∧ s.hdrLen.toNat ≤ 293) ∧
    v.getLsbD 5 = s.bodyComplete ∧ v.getLsbD 6 = s.crcMatch ∧ v.toNat < 128

/-- R62, R233: while nothing is pending, a written DMEM byte reads back what was last written, and every other byte is as
it was; a byte never written reads as the free choice of that read (assumption logs 3 and 15). That of a triple's value the
low 8 bits are stored is the model's choice (assumption log 12). -/
def Obligations.DmemBytesReadBack : Prop :=
  ∀ (s : State) (x : Nat) (v : Word), x < 2048 → s.busy = false →
    let t := hostAccess { offset := BitVec.ofNat 13 (0x1000 + x), width := 8, value := some v } s
    t = { s with dmem := t.dmem } ∧ t.dmem.written x = true ∧ sameOutside s.dmem t.dmem x 1 ∧
    (hostAccess { offset := BitVec.ofNat 13 (0x1000 + x), width := 8, value := none } t).readData.toNat = v.toNat % 256 ∧
    (s.dmem.written x = false →
      (hostAccess { offset := BitVec.ofNat 13 (0x1000 + x), width := 8, value := none } s).readData =
        (Config.freeByte s.tape s.draws x).setWidth 32)

/-- R235, R210: while a command is pending, a write to an RW register, to CMD or to a DMEM byte records HOST_HAZARD; what it
writes is a free value, and so is everything the command leaves that some command may write: the Engine's step then ends the
command with a free error code, free results, and no DMEM byte known. That the written value and the result are free values is
the model's choice (assumption log 6). -/
def Obligations.WriteWhileBusyIsAHazard : Prop :=
  (∀ (s : State) (acc : BusAccess) (v : Word), s.busy = true → acc.value = some v →
    (∀ r, regAccess r ≠ .readOnly → acc.width = 32 → acc.offset.toNat = regOffset r →
      hostAccess acc s = { writeReg r (Config.freeWord s.tape s.draws) s with
        faultHostHazard := true, tainted := true, draws := s.draws + 1 } ∧ (hostAccess acc s).busy = true) ∧
    (acc.width = 8 → 0x1000 ≤ acc.offset.toNat → acc.offset.toNat < 0x1800 →
      hostAccess acc s = { s with
        dmem := s.dmem.store (acc.offset.toNat - 0x1000) ((Config.freeWord s.tape s.draws).setWidth 8)
        faultHostHazard := true, tainted := true, draws := s.draws + 1 } ∧ (hostAccess acc s).busy = true)) ∧
  (∀ (s : State) (w : Word), s.initDone = true → s.pending = some w → s.tainted = true → s.turns = [] →
    let free (k : Nat) : Word := Config.freeWord s.tape (s.draws + k)
    ∃ t, step s = .next t ∧
      t = { s with
        errcode := (free 0).setWidth 8, err := t.err, crcResult := (free 1).setWidth 16, outLen := (free 2).setWidth 16
        bodyNeed := (free 3).setWidth 17, kind := t.kind, hdrTid := (free 5).setWidth 16, hdrProto := (free 6).setWidth 16
        hdrLen := (free 7).setWidth 16, hdrUnit := (free 8).setWidth 8, hdrMsgid := (free 9).setWidth 8
        bodyComplete := (free 10).getLsbD 0, crcMatch := (free 11).getLsbD 0, recs := t.recs, dmem := []
        draws := s.draws + 76, tainted := false, pending := none, done := true } ∧
      (t.err = true ↔ t.errcode ≠ 0x00#8) ∧ t.kind.code = (free 4).setWidth 3 ∧
      (∀ i : Fin 64, t.recs[i] = free (12 + i.val)) ∧ ∀ x, t.dmem.written x = false)

/-- R210: a model fault leaves FAULTS only at a reset. -/
def Obligations.FaultsAreNeverCleared : Prop :=
  ∀ s t : State, s.turns.head? ≠ some .reset → step s = .next t →
    (s.faultBusMisuse = true → t.faultBusMisuse = true) ∧ (s.faultHostHazard = true → t.faultHostHazard = true)

/-- R91, R92: what every statement of the Host assembly expands to; R93: the encoding of
`run`, the CMD write followed by reads of STATUS until one returns a value with bit 2 set. -/
def Obligations.PseudoInstructionsExpand : Prop :=
  (∀ (labels : Nat → Nat) (pos : Nat) (r : RegName) (v : Word) (a : BitVec 12) (b : Byte) (bit l : Nat),
    expandStmt labels pos (.wr r v) = [.bus { offset := BitVec.ofNat 13 (regOffset r), width := 32, value := some v }] ∧
    expandStmt labels pos (.rd r) = [.bus { offset := BitVec.ofNat 13 (regOffset r), width := 32, value := none }] ∧
    expandStmt labels pos (.wb a b) =
      [.bus { offset := BitVec.ofNat 13 (0x1000 + a.toNat), width := 8, value := some (b.setWidth 32) }] ∧
    expandStmt labels pos (.rb a) = [.bus { offset := BitVec.ofNat 13 (0x1000 + a.toNat), width := 8, value := none }] ∧
    expandStmt labels pos (.brc r bit l) = expandStmt labels pos (.rd r) ++ [.branchIf bit false (labels l)] ∧
    expandStmt labels pos (.brs r bit l) = expandStmt labels pos (.rd r) ++ [.branchIf bit true (labels l)] ∧
    expandStmt labels pos (.jmp l) = [.jump (labels l)] ∧ expandStmt labels pos (.label l) = [] ∧
    expandStmt labels pos .halt = [.halt]) ∧
  (∀ (labels : Nat → Nat) (pos : Nat) (a : BitVec 12) (bs : List Byte), a.toNat + bs.length ≤ 4096 →
    expandStmt labels pos (.wbs a bs) = bs.zipIdx.map fun (b, i) =>
      .bus { offset := BitVec.ofNat 13 (0x1000 + (a.toNat + i)), width := 8, value := some (b.setWidth 32) }) ∧
  (∀ (labels : Nat → Nat) (pos : Nat) (a n d : Option Word),
    expandStmt labels pos (.set a n d) =
      (a.toList.map fun v => .bus { offset := 0x010#13, width := 32, value := some v }) ++
        (n.toList.map fun v => .bus { offset := 0x014#13, width := 32, value := some v }) ++
          d.toList.map fun v => .bus { offset := 0x018#13, width := 32, value := some v }) ∧
  (∀ (i : Instr) (labels : Nat → Nat) (pos : Nat),
    expandStmt labels pos (.cmd i) = [.bus { offset := 0x008#13, width := 32, value := some (encode i) }] ∧
    expandStmt labels pos .wait = [.bus { offset := 0x004#13, width := 32, value := none }, .branchIf 2 false pos] ∧
    expandStmt labels pos .waitReady = [.bus { offset := 0x004#13, width := 32, value := none }, .branchIf 0 false pos] ∧
    expandStmt labels pos (.run i) = expandStmt labels pos (.cmd i) ++ expandStmt labels (pos + 1) .wait) ∧
  ∀ (i : Instr) (early : List Word) (last : Word) (fuel : Nat),
    (∀ u ∈ early, u.getLsbD 2 = false) → last.getLsbD 2 = true → 2 * early.length + 3 ≤ fuel →
    encodeProgram [.run i] fuel (early ++ [last]) =
      { offset := 0x008#13, width := 32, value := some (encode i) } ::
        List.replicate (early.length + 1) { offset := 0x004#13, width := 32, value := none }

/-! ### Reset, the invariant, the platform -/

/-- R230: what the Host reads after reset, and the hidden state. -/
def Obligations.ResetLeavesTheStatedValues : Prop :=
  readReg State.reset .id = 0x47504501#32 ∧ readReg State.reset .status = 0#32 ∧
  (∀ r ∈ ([.cmd, .errcode, .addrA, .lenA, .addrD, .config, .kind, .outLen, .bodyNeed, .hdrTid, .hdrProto, .hdrLen,
      .hdrUnit, .hdrMsgid, .ndesc, .recSize] : List RegName), readReg State.reset r = 0#32) ∧
  readReg State.reset .crcResult = 0x0000FFFF#32 ∧ readReg State.reset .keyLen = 7#32 ∧
  readReg State.reset (.keyW 0) = 0x47726F77#32 ∧ readReg State.reset (.keyW 1) = 0x61747400#32 ∧
  readReg State.reset (.keyW 2) = 0#32 ∧ readReg State.reset (.keyW 3) = 0#32 ∧
  (∀ i, readReg State.reset (.desc i) = 0#32) ∧ (∀ i, readReg State.reset (.recEntry i) = 0#32) ∧
  readReg State.reset .recBase = 71#32 ∧ readReg State.reset .memSize = 2048#32 ∧
  State.reset.pending = none ∧ State.reset.initDone = false ∧ State.reset.faultFree ∧
  ∀ x, State.reset.dmem.written x = false

/-- R231: a reset discards the pending command and leaves every register, DMEM and the hidden state as after reset. -/
def Obligations.ResetDiscardsThePendingCommand : Prop :=
  ∀ (s : State) (rest : List Turn), s.turns = .reset :: rest →
    step s = .next { State.reset with
      draws := s.draws, tape := s.tape, hostProg := s.hostProg, hostPc := s.hostPc, readData := s.readData, turns := rest }

/-- The invariant `StepInv` (20_memory.md R68, 40_checksum.md R100, 45_control.md R190 to R194, 60_exceptions.md R200, R210,
10_state.md R32, R34, R35) is kept by every step of every agent, from every state that has it. -/
def Obligations.EveryStepKeepsTheInvariant : Prop :=
  ∀ s t : State, StepInv s → step s = .next t → StepInv t

/-- The invariant holds after reset. -/
def Obligations.ResetHasTheInvariant : Prop := StepInv State.reset

/-- R55, R212: a step of one instance, and an access that reaches one instance, leave every other instance as it was. Every instance of a platform starts after a reset of its own; that each draws its
free values from a tape of its own, which no step changes, is the model's choice (assumption log 15). -/
def Obligations.InstancesAreIsolated : Prop :=
  (1 ≤ Config.nInst ∧ Platform.reset.cells.length = Config.nInst ∧
    ∀ k < Config.nInst, Platform.reset.cells[k]? = some { State.reset with tape := k }) ∧
  (∀ s t : State, step s = .next t → t.tape = s.tape) ∧
  (∀ (p q : Platform) (k j : Nat), p.stepAt k = .next q → j ≠ k → q.cells[j]? = p.cells[j]?) ∧
  (∀ (p : Platform) (addr width : Nat) (value : Option Word) (j : Nat),
    (∀ off, p.route addr ≠ some (j, off)) → (p.access addr width value).cells[j]? = p.cells[j]?)
end

