-- ==== Sys2Proof/Laws/State.lean ====
section
/-! SUPPORT. One lemma per field per update of State by the shared operations, each true by rfl, so that no later proof unfolds a
record update. -/

namespace Sys2Proof.Machine

/-! ### issue -/

@[simp] theorem issue_initDone (w : Word) (s : State) : (issue w s).initDone = s.initDone := rfl
@[simp] theorem issue_pending (w : Word) (s : State) : (issue w s).pending = some w := rfl
@[simp] theorem issue_done (w : Word) (s : State) : (issue w s).done = false := rfl
@[simp] theorem issue_err (w : Word) (s : State) : (issue w s).err = false := rfl
@[simp] theorem issue_bodyComplete (w : Word) (s : State) : (issue w s).bodyComplete = s.bodyComplete := rfl
@[simp] theorem issue_crcMatch (w : Word) (s : State) : (issue w s).crcMatch = s.crcMatch := rfl
@[simp] theorem issue_errcode (w : Word) (s : State) : (issue w s).errcode = 0x00#8 := rfl
@[simp] theorem issue_addrA (w : Word) (s : State) : (issue w s).addrA = s.addrA := rfl
@[simp] theorem issue_lenA (w : Word) (s : State) : (issue w s).lenA = s.lenA := rfl
@[simp] theorem issue_addrD (w : Word) (s : State) : (issue w s).addrD = s.addrD := rfl
@[simp] theorem issue_crcOrder (w : Word) (s : State) : (issue w s).crcOrder = s.crcOrder := rfl
@[simp] theorem issue_kind (w : Word) (s : State) : (issue w s).kind = s.kind := rfl
@[simp] theorem issue_crcResult (w : Word) (s : State) : (issue w s).crcResult = s.crcResult := rfl
@[simp] theorem issue_outLen (w : Word) (s : State) : (issue w s).outLen = s.outLen := rfl
@[simp] theorem issue_bodyNeed (w : Word) (s : State) : (issue w s).bodyNeed = s.bodyNeed := rfl
@[simp] theorem issue_hdrTid (w : Word) (s : State) : (issue w s).hdrTid = s.hdrTid := rfl
@[simp] theorem issue_hdrProto (w : Word) (s : State) : (issue w s).hdrProto = s.hdrProto := rfl
@[simp] theorem issue_hdrLen (w : Word) (s : State) : (issue w s).hdrLen = s.hdrLen := rfl
@[simp] theorem issue_hdrUnit (w : Word) (s : State) : (issue w s).hdrUnit = s.hdrUnit := rfl
@[simp] theorem issue_hdrMsgid (w : Word) (s : State) : (issue w s).hdrMsgid = s.hdrMsgid := rfl
@[simp] theorem issue_keyLen (w : Word) (s : State) : (issue w s).keyLen = s.keyLen := rfl
@[simp] theorem issue_keyW (w : Word) (s : State) : (issue w s).keyW = s.keyW := rfl
@[simp] theorem issue_ndesc (w : Word) (s : State) : (issue w s).ndesc = s.ndesc := rfl
@[simp] theorem issue_desc (w : Word) (s : State) : (issue w s).desc = s.desc := rfl
@[simp] theorem issue_recs (w : Word) (s : State) : (issue w s).recs = s.recs := rfl
@[simp] theorem issue_tbl (w : Word) (s : State) : (issue w s).tbl = s.tbl := rfl
@[simp] theorem issue_dmem (w : Word) (s : State) : (issue w s).dmem = s.dmem := rfl
@[simp] theorem issue_faultBusMisuse (w : Word) (s : State) : (issue w s).faultBusMisuse = s.faultBusMisuse := rfl
@[simp] theorem issue_faultHostHazard (w : Word) (s : State) : (issue w s).faultHostHazard = s.faultHostHazard := rfl
@[simp] theorem issue_tainted (w : Word) (s : State) : (issue w s).tainted = s.tainted := rfl
@[simp] theorem issue_draws (w : Word) (s : State) : (issue w s).draws = s.draws := rfl
@[simp] theorem issue_tape (w : Word) (s : State) : (issue w s).tape = s.tape := rfl
@[simp] theorem issue_hostProg (w : Word) (s : State) : (issue w s).hostProg = s.hostProg := rfl
@[simp] theorem issue_hostPc (w : Word) (s : State) : (issue w s).hostPc = s.hostPc := rfl
@[simp] theorem issue_readData (w : Word) (s : State) : (issue w s).readData = s.readData := rfl
@[simp] theorem issue_turns (w : Word) (s : State) : (issue w s).turns = s.turns := rfl

/-! ### raiseError -/

@[simp] theorem raiseError_initDone (e : ErrCode) (s : State) : (raiseError e s).initDone = s.initDone := rfl
@[simp] theorem raiseError_pending (e : ErrCode) (s : State) : (raiseError e s).pending = none := rfl
@[simp] theorem raiseError_done (e : ErrCode) (s : State) : (raiseError e s).done = true := rfl
@[simp] theorem raiseError_err (e : ErrCode) (s : State) : (raiseError e s).err = true := rfl
@[simp] theorem raiseError_bodyComplete (e : ErrCode) (s : State) : (raiseError e s).bodyComplete = s.bodyComplete := rfl
@[simp] theorem raiseError_crcMatch (e : ErrCode) (s : State) : (raiseError e s).crcMatch = s.crcMatch := rfl
@[simp] theorem raiseError_errcode (e : ErrCode) (s : State) : (raiseError e s).errcode = e.code := rfl
@[simp] theorem raiseError_addrA (e : ErrCode) (s : State) : (raiseError e s).addrA = s.addrA := rfl
@[simp] theorem raiseError_lenA (e : ErrCode) (s : State) : (raiseError e s).lenA = s.lenA := rfl
@[simp] theorem raiseError_addrD (e : ErrCode) (s : State) : (raiseError e s).addrD = s.addrD := rfl
@[simp] theorem raiseError_crcOrder (e : ErrCode) (s : State) : (raiseError e s).crcOrder = s.crcOrder := rfl
@[simp] theorem raiseError_kind (e : ErrCode) (s : State) : (raiseError e s).kind = s.kind := rfl
@[simp] theorem raiseError_crcResult (e : ErrCode) (s : State) : (raiseError e s).crcResult = s.crcResult := rfl
@[simp] theorem raiseError_outLen (e : ErrCode) (s : State) : (raiseError e s).outLen = s.outLen := rfl
@[simp] theorem raiseError_bodyNeed (e : ErrCode) (s : State) : (raiseError e s).bodyNeed = s.bodyNeed := rfl
@[simp] theorem raiseError_hdrTid (e : ErrCode) (s : State) : (raiseError e s).hdrTid = s.hdrTid := rfl
@[simp] theorem raiseError_hdrProto (e : ErrCode) (s : State) : (raiseError e s).hdrProto = s.hdrProto := rfl
@[simp] theorem raiseError_hdrLen (e : ErrCode) (s : State) : (raiseError e s).hdrLen = s.hdrLen := rfl
@[simp] theorem raiseError_hdrUnit (e : ErrCode) (s : State) : (raiseError e s).hdrUnit = s.hdrUnit := rfl
@[simp] theorem raiseError_hdrMsgid (e : ErrCode) (s : State) : (raiseError e s).hdrMsgid = s.hdrMsgid := rfl
@[simp] theorem raiseError_keyLen (e : ErrCode) (s : State) : (raiseError e s).keyLen = s.keyLen := rfl
@[simp] theorem raiseError_keyW (e : ErrCode) (s : State) : (raiseError e s).keyW = s.keyW := rfl
@[simp] theorem raiseError_ndesc (e : ErrCode) (s : State) : (raiseError e s).ndesc = s.ndesc := rfl
@[simp] theorem raiseError_desc (e : ErrCode) (s : State) : (raiseError e s).desc = s.desc := rfl
@[simp] theorem raiseError_recs (e : ErrCode) (s : State) : (raiseError e s).recs = s.recs := rfl
@[simp] theorem raiseError_tbl (e : ErrCode) (s : State) : (raiseError e s).tbl = s.tbl := rfl
@[simp] theorem raiseError_dmem (e : ErrCode) (s : State) : (raiseError e s).dmem = s.dmem := rfl
@[simp] theorem raiseError_faultBusMisuse (e : ErrCode) (s : State) : (raiseError e s).faultBusMisuse = s.faultBusMisuse := rfl
@[simp] theorem raiseError_faultHostHazard (e : ErrCode) (s : State) : (raiseError e s).faultHostHazard = s.faultHostHazard := rfl
@[simp] theorem raiseError_tainted (e : ErrCode) (s : State) : (raiseError e s).tainted = s.tainted := rfl
@[simp] theorem raiseError_draws (e : ErrCode) (s : State) : (raiseError e s).draws = s.draws := rfl
@[simp] theorem raiseError_tape (e : ErrCode) (s : State) : (raiseError e s).tape = s.tape := rfl
@[simp] theorem raiseError_hostProg (e : ErrCode) (s : State) : (raiseError e s).hostProg = s.hostProg := rfl
@[simp] theorem raiseError_hostPc (e : ErrCode) (s : State) : (raiseError e s).hostPc = s.hostPc := rfl
@[simp] theorem raiseError_readData (e : ErrCode) (s : State) : (raiseError e s).readData = s.readData := rfl
@[simp] theorem raiseError_turns (e : ErrCode) (s : State) : (raiseError e s).turns = s.turns := rfl

/-! ### completeOk -/

@[simp] theorem completeOk_initDone (s : State) : (completeOk s).initDone = s.initDone := rfl
@[simp] theorem completeOk_pending (s : State) : (completeOk s).pending = none := rfl
@[simp] theorem completeOk_done (s : State) : (completeOk s).done = true := rfl
@[simp] theorem completeOk_err (s : State) : (completeOk s).err = false := rfl
@[simp] theorem completeOk_bodyComplete (s : State) : (completeOk s).bodyComplete = s.bodyComplete := rfl
@[simp] theorem completeOk_crcMatch (s : State) : (completeOk s).crcMatch = s.crcMatch := rfl
@[simp] theorem completeOk_errcode (s : State) : (completeOk s).errcode = 0x00#8 := rfl
@[simp] theorem completeOk_addrA (s : State) : (completeOk s).addrA = s.addrA := rfl
@[simp] theorem completeOk_lenA (s : State) : (completeOk s).lenA = s.lenA := rfl
@[simp] theorem completeOk_addrD (s : State) : (completeOk s).addrD = s.addrD := rfl
@[simp] theorem completeOk_crcOrder (s : State) : (completeOk s).crcOrder = s.crcOrder := rfl
@[simp] theorem completeOk_kind (s : State) : (completeOk s).kind = s.kind := rfl
@[simp] theorem completeOk_crcResult (s : State) : (completeOk s).crcResult = s.crcResult := rfl
@[simp] theorem completeOk_outLen (s : State) : (completeOk s).outLen = s.outLen := rfl
@[simp] theorem completeOk_bodyNeed (s : State) : (completeOk s).bodyNeed = s.bodyNeed := rfl
@[simp] theorem completeOk_hdrTid (s : State) : (completeOk s).hdrTid = s.hdrTid := rfl
@[simp] theorem completeOk_hdrProto (s : State) : (completeOk s).hdrProto = s.hdrProto := rfl
@[simp] theorem completeOk_hdrLen (s : State) : (completeOk s).hdrLen = s.hdrLen := rfl
@[simp] theorem completeOk_hdrUnit (s : State) : (completeOk s).hdrUnit = s.hdrUnit := rfl
@[simp] theorem completeOk_hdrMsgid (s : State) : (completeOk s).hdrMsgid = s.hdrMsgid := rfl
@[simp] theorem completeOk_keyLen (s : State) : (completeOk s).keyLen = s.keyLen := rfl
@[simp] theorem completeOk_keyW (s : State) : (completeOk s).keyW = s.keyW := rfl
@[simp] theorem completeOk_ndesc (s : State) : (completeOk s).ndesc = s.ndesc := rfl
@[simp] theorem completeOk_desc (s : State) : (completeOk s).desc = s.desc := rfl
@[simp] theorem completeOk_recs (s : State) : (completeOk s).recs = s.recs := rfl
@[simp] theorem completeOk_tbl (s : State) : (completeOk s).tbl = s.tbl := rfl
@[simp] theorem completeOk_dmem (s : State) : (completeOk s).dmem = s.dmem := rfl
@[simp] theorem completeOk_faultBusMisuse (s : State) : (completeOk s).faultBusMisuse = s.faultBusMisuse := rfl
@[simp] theorem completeOk_faultHostHazard (s : State) : (completeOk s).faultHostHazard = s.faultHostHazard := rfl
@[simp] theorem completeOk_tainted (s : State) : (completeOk s).tainted = s.tainted := rfl
@[simp] theorem completeOk_draws (s : State) : (completeOk s).draws = s.draws := rfl
@[simp] theorem completeOk_tape (s : State) : (completeOk s).tape = s.tape := rfl
@[simp] theorem completeOk_hostProg (s : State) : (completeOk s).hostProg = s.hostProg := rfl
@[simp] theorem completeOk_hostPc (s : State) : (completeOk s).hostPc = s.hostPc := rfl
@[simp] theorem completeOk_readData (s : State) : (completeOk s).readData = s.readData := rfl
@[simp] theorem completeOk_turns (s : State) : (completeOk s).turns = s.turns := rfl

/-! ### buildTable -/

@[simp] theorem buildTable_initDone (s : State) : (buildTable s).initDone = true := rfl
@[simp] theorem buildTable_pending (s : State) : (buildTable s).pending = s.pending := rfl
@[simp] theorem buildTable_done (s : State) : (buildTable s).done = s.done := rfl
@[simp] theorem buildTable_err (s : State) : (buildTable s).err = s.err := rfl
@[simp] theorem buildTable_bodyComplete (s : State) : (buildTable s).bodyComplete = s.bodyComplete := rfl
@[simp] theorem buildTable_crcMatch (s : State) : (buildTable s).crcMatch = s.crcMatch := rfl
@[simp] theorem buildTable_errcode (s : State) : (buildTable s).errcode = s.errcode := rfl
@[simp] theorem buildTable_addrA (s : State) : (buildTable s).addrA = s.addrA := rfl
@[simp] theorem buildTable_lenA (s : State) : (buildTable s).lenA = s.lenA := rfl
@[simp] theorem buildTable_addrD (s : State) : (buildTable s).addrD = s.addrD := rfl
@[simp] theorem buildTable_crcOrder (s : State) : (buildTable s).crcOrder = s.crcOrder := rfl
@[simp] theorem buildTable_kind (s : State) : (buildTable s).kind = s.kind := rfl
@[simp] theorem buildTable_crcResult (s : State) : (buildTable s).crcResult = s.crcResult := rfl
@[simp] theorem buildTable_outLen (s : State) : (buildTable s).outLen = s.outLen := rfl
@[simp] theorem buildTable_bodyNeed (s : State) : (buildTable s).bodyNeed = s.bodyNeed := rfl
@[simp] theorem buildTable_hdrTid (s : State) : (buildTable s).hdrTid = s.hdrTid := rfl
@[simp] theorem buildTable_hdrProto (s : State) : (buildTable s).hdrProto = s.hdrProto := rfl
@[simp] theorem buildTable_hdrLen (s : State) : (buildTable s).hdrLen = s.hdrLen := rfl
@[simp] theorem buildTable_hdrUnit (s : State) : (buildTable s).hdrUnit = s.hdrUnit := rfl
@[simp] theorem buildTable_hdrMsgid (s : State) : (buildTable s).hdrMsgid = s.hdrMsgid := rfl
@[simp] theorem buildTable_keyLen (s : State) : (buildTable s).keyLen = s.keyLen := rfl
@[simp] theorem buildTable_keyW (s : State) : (buildTable s).keyW = s.keyW := rfl
@[simp] theorem buildTable_ndesc (s : State) : (buildTable s).ndesc = s.ndesc := rfl
@[simp] theorem buildTable_desc (s : State) : (buildTable s).desc = s.desc := rfl
@[simp] theorem buildTable_recs (s : State) : (buildTable s).recs = s.recs := rfl
@[simp] theorem buildTable_tbl (s : State) : (buildTable s).tbl = crcTable := rfl
@[simp] theorem buildTable_dmem (s : State) : (buildTable s).dmem = s.dmem := rfl
@[simp] theorem buildTable_faultBusMisuse (s : State) : (buildTable s).faultBusMisuse = s.faultBusMisuse := rfl
@[simp] theorem buildTable_faultHostHazard (s : State) : (buildTable s).faultHostHazard = s.faultHostHazard := rfl
@[simp] theorem buildTable_tainted (s : State) : (buildTable s).tainted = s.tainted := rfl
@[simp] theorem buildTable_draws (s : State) : (buildTable s).draws = s.draws := rfl
@[simp] theorem buildTable_tape (s : State) : (buildTable s).tape = s.tape := rfl
@[simp] theorem buildTable_hostProg (s : State) : (buildTable s).hostProg = s.hostProg := rfl
@[simp] theorem buildTable_hostPc (s : State) : (buildTable s).hostPc = s.hostPc := rfl
@[simp] theorem buildTable_readData (s : State) : (buildTable s).readData = s.readData := rfl
@[simp] theorem buildTable_turns (s : State) : (buildTable s).turns = s.turns := rfl

/-! ### returnRead -/

@[simp] theorem returnRead_initDone (v : Word) (s : State) : (returnRead v s).initDone = s.initDone := rfl
@[simp] theorem returnRead_pending (v : Word) (s : State) : (returnRead v s).pending = s.pending := rfl
@[simp] theorem returnRead_done (v : Word) (s : State) : (returnRead v s).done = s.done := rfl
@[simp] theorem returnRead_err (v : Word) (s : State) : (returnRead v s).err = s.err := rfl
@[simp] theorem returnRead_bodyComplete (v : Word) (s : State) : (returnRead v s).bodyComplete = s.bodyComplete := rfl
@[simp] theorem returnRead_crcMatch (v : Word) (s : State) : (returnRead v s).crcMatch = s.crcMatch := rfl
@[simp] theorem returnRead_errcode (v : Word) (s : State) : (returnRead v s).errcode = s.errcode := rfl
@[simp] theorem returnRead_addrA (v : Word) (s : State) : (returnRead v s).addrA = s.addrA := rfl
@[simp] theorem returnRead_lenA (v : Word) (s : State) : (returnRead v s).lenA = s.lenA := rfl
@[simp] theorem returnRead_addrD (v : Word) (s : State) : (returnRead v s).addrD = s.addrD := rfl
@[simp] theorem returnRead_crcOrder (v : Word) (s : State) : (returnRead v s).crcOrder = s.crcOrder := rfl
@[simp] theorem returnRead_kind (v : Word) (s : State) : (returnRead v s).kind = s.kind := rfl
@[simp] theorem returnRead_crcResult (v : Word) (s : State) : (returnRead v s).crcResult = s.crcResult := rfl
@[simp] theorem returnRead_outLen (v : Word) (s : State) : (returnRead v s).outLen = s.outLen := rfl
@[simp] theorem returnRead_bodyNeed (v : Word) (s : State) : (returnRead v s).bodyNeed = s.bodyNeed := rfl
@[simp] theorem returnRead_hdrTid (v : Word) (s : State) : (returnRead v s).hdrTid = s.hdrTid := rfl
@[simp] theorem returnRead_hdrProto (v : Word) (s : State) : (returnRead v s).hdrProto = s.hdrProto := rfl
@[simp] theorem returnRead_hdrLen (v : Word) (s : State) : (returnRead v s).hdrLen = s.hdrLen := rfl
@[simp] theorem returnRead_hdrUnit (v : Word) (s : State) : (returnRead v s).hdrUnit = s.hdrUnit := rfl
@[simp] theorem returnRead_hdrMsgid (v : Word) (s : State) : (returnRead v s).hdrMsgid = s.hdrMsgid := rfl
@[simp] theorem returnRead_keyLen (v : Word) (s : State) : (returnRead v s).keyLen = s.keyLen := rfl
@[simp] theorem returnRead_keyW (v : Word) (s : State) : (returnRead v s).keyW = s.keyW := rfl
@[simp] theorem returnRead_ndesc (v : Word) (s : State) : (returnRead v s).ndesc = s.ndesc := rfl
@[simp] theorem returnRead_desc (v : Word) (s : State) : (returnRead v s).desc = s.desc := rfl
@[simp] theorem returnRead_recs (v : Word) (s : State) : (returnRead v s).recs = s.recs := rfl
@[simp] theorem returnRead_tbl (v : Word) (s : State) : (returnRead v s).tbl = s.tbl := rfl
@[simp] theorem returnRead_dmem (v : Word) (s : State) : (returnRead v s).dmem = s.dmem := rfl
@[simp] theorem returnRead_faultBusMisuse (v : Word) (s : State) : (returnRead v s).faultBusMisuse = s.faultBusMisuse := rfl
@[simp] theorem returnRead_faultHostHazard (v : Word) (s : State) : (returnRead v s).faultHostHazard = s.faultHostHazard := rfl
@[simp] theorem returnRead_tainted (v : Word) (s : State) : (returnRead v s).tainted = s.tainted := rfl
@[simp] theorem returnRead_draws (v : Word) (s : State) : (returnRead v s).draws = s.draws + 1 := rfl
@[simp] theorem returnRead_tape (v : Word) (s : State) : (returnRead v s).tape = s.tape := rfl
@[simp] theorem returnRead_hostProg (v : Word) (s : State) : (returnRead v s).hostProg = s.hostProg := rfl
@[simp] theorem returnRead_hostPc (v : Word) (s : State) : (returnRead v s).hostPc = s.hostPc := rfl
@[simp] theorem returnRead_readData (v : Word) (s : State) : (returnRead v s).readData = v := rfl
@[simp] theorem returnRead_turns (v : Word) (s : State) : (returnRead v s).turns = s.turns := rfl

/-! ### hazard -/

@[simp] theorem hazard_initDone (s : State) : (hazard s).initDone = s.initDone := rfl
@[simp] theorem hazard_pending (s : State) : (hazard s).pending = s.pending := rfl
@[simp] theorem hazard_done (s : State) : (hazard s).done = s.done := rfl
@[simp] theorem hazard_err (s : State) : (hazard s).err = s.err := rfl
@[simp] theorem hazard_bodyComplete (s : State) : (hazard s).bodyComplete = s.bodyComplete := rfl
@[simp] theorem hazard_crcMatch (s : State) : (hazard s).crcMatch = s.crcMatch := rfl
@[simp] theorem hazard_errcode (s : State) : (hazard s).errcode = s.errcode := rfl
@[simp] theorem hazard_addrA (s : State) : (hazard s).addrA = s.addrA := rfl
@[simp] theorem hazard_lenA (s : State) : (hazard s).lenA = s.lenA := rfl
@[simp] theorem hazard_addrD (s : State) : (hazard s).addrD = s.addrD := rfl
@[simp] theorem hazard_crcOrder (s : State) : (hazard s).crcOrder = s.crcOrder := rfl
@[simp] theorem hazard_kind (s : State) : (hazard s).kind = s.kind := rfl
@[simp] theorem hazard_crcResult (s : State) : (hazard s).crcResult = s.crcResult := rfl
@[simp] theorem hazard_outLen (s : State) : (hazard s).outLen = s.outLen := rfl
@[simp] theorem hazard_bodyNeed (s : State) : (hazard s).bodyNeed = s.bodyNeed := rfl
@[simp] theorem hazard_hdrTid (s : State) : (hazard s).hdrTid = s.hdrTid := rfl
@[simp] theorem hazard_hdrProto (s : State) : (hazard s).hdrProto = s.hdrProto := rfl
@[simp] theorem hazard_hdrLen (s : State) : (hazard s).hdrLen = s.hdrLen := rfl
@[simp] theorem hazard_hdrUnit (s : State) : (hazard s).hdrUnit = s.hdrUnit := rfl
@[simp] theorem hazard_hdrMsgid (s : State) : (hazard s).hdrMsgid = s.hdrMsgid := rfl
@[simp] theorem hazard_keyLen (s : State) : (hazard s).keyLen = s.keyLen := rfl
@[simp] theorem hazard_keyW (s : State) : (hazard s).keyW = s.keyW := rfl
@[simp] theorem hazard_ndesc (s : State) : (hazard s).ndesc = s.ndesc := rfl
@[simp] theorem hazard_desc (s : State) : (hazard s).desc = s.desc := rfl
@[simp] theorem hazard_recs (s : State) : (hazard s).recs = s.recs := rfl
@[simp] theorem hazard_tbl (s : State) : (hazard s).tbl = s.tbl := rfl
@[simp] theorem hazard_dmem (s : State) : (hazard s).dmem = s.dmem := rfl
@[simp] theorem hazard_faultBusMisuse (s : State) : (hazard s).faultBusMisuse = s.faultBusMisuse := rfl
@[simp] theorem hazard_faultHostHazard (s : State) : (hazard s).faultHostHazard = true := rfl
@[simp] theorem hazard_tainted (s : State) : (hazard s).tainted = true := rfl
@[simp] theorem hazard_draws (s : State) : (hazard s).draws = s.draws + 1 := rfl
@[simp] theorem hazard_tape (s : State) : (hazard s).tape = s.tape := rfl
@[simp] theorem hazard_hostProg (s : State) : (hazard s).hostProg = s.hostProg := rfl
@[simp] theorem hazard_hostPc (s : State) : (hazard s).hostPc = s.hostPc := rfl
@[simp] theorem hazard_readData (s : State) : (hazard s).readData = s.readData := rfl
@[simp] theorem hazard_turns (s : State) : (hazard s).turns = s.turns := rfl

/-! ### completeTainted -/

@[simp] theorem completeTainted_initDone (s : State) : (completeTainted s).initDone = s.initDone := rfl
@[simp] theorem completeTainted_pending (s : State) : (completeTainted s).pending = none := rfl
@[simp] theorem completeTainted_done (s : State) : (completeTainted s).done = true := rfl
@[simp] theorem completeTainted_err (s : State) : (completeTainted s).err = ((freshWord s 0).setWidth 8 != 0x00#8) := rfl
@[simp] theorem completeTainted_bodyComplete (s : State) : (completeTainted s).bodyComplete = (freshWord s 10).getLsbD 0 := rfl
@[simp] theorem completeTainted_crcMatch (s : State) : (completeTainted s).crcMatch = (freshWord s 11).getLsbD 0 := rfl
@[simp] theorem completeTainted_errcode (s : State) : (completeTainted s).errcode = (freshWord s 0).setWidth 8 := rfl
@[simp] theorem completeTainted_addrA (s : State) : (completeTainted s).addrA = s.addrA := rfl
@[simp] theorem completeTainted_lenA (s : State) : (completeTainted s).lenA = s.lenA := rfl
@[simp] theorem completeTainted_addrD (s : State) : (completeTainted s).addrD = s.addrD := rfl
@[simp] theorem completeTainted_crcOrder (s : State) : (completeTainted s).crcOrder = s.crcOrder := rfl
@[simp] theorem completeTainted_kind (s : State) :
    (completeTainted s).kind = MessageKind.ofCode ((freshWord s 4).setWidth 3) := rfl
@[simp] theorem completeTainted_crcResult (s : State) : (completeTainted s).crcResult = (freshWord s 1).setWidth 16 := rfl
@[simp] theorem completeTainted_outLen (s : State) : (completeTainted s).outLen = (freshWord s 2).setWidth 16 := rfl
@[simp] theorem completeTainted_bodyNeed (s : State) : (completeTainted s).bodyNeed = (freshWord s 3).setWidth 17 := rfl
@[simp] theorem completeTainted_hdrTid (s : State) : (completeTainted s).hdrTid = (freshWord s 5).setWidth 16 := rfl
@[simp] theorem completeTainted_hdrProto (s : State) : (completeTainted s).hdrProto = (freshWord s 6).setWidth 16 := rfl
@[simp] theorem completeTainted_hdrLen (s : State) : (completeTainted s).hdrLen = (freshWord s 7).setWidth 16 := rfl
@[simp] theorem completeTainted_hdrUnit (s : State) : (completeTainted s).hdrUnit = (freshWord s 8).setWidth 8 := rfl
@[simp] theorem completeTainted_hdrMsgid (s : State) : (completeTainted s).hdrMsgid = (freshWord s 9).setWidth 8 := rfl
@[simp] theorem completeTainted_keyLen (s : State) : (completeTainted s).keyLen = s.keyLen := rfl
@[simp] theorem completeTainted_keyW (s : State) : (completeTainted s).keyW = s.keyW := rfl
@[simp] theorem completeTainted_ndesc (s : State) : (completeTainted s).ndesc = s.ndesc := rfl
@[simp] theorem completeTainted_desc (s : State) : (completeTainted s).desc = s.desc := rfl
@[simp] theorem completeTainted_recs (s : State) : (completeTainted s).recs = tabulate 64 fun i => freshWord s (12 + i) := rfl
@[simp] theorem completeTainted_tbl (s : State) : (completeTainted s).tbl = s.tbl := rfl
@[simp] theorem completeTainted_dmem (s : State) : (completeTainted s).dmem = [] := rfl
@[simp] theorem completeTainted_faultBusMisuse (s : State) : (completeTainted s).faultBusMisuse = s.faultBusMisuse := rfl
@[simp] theorem completeTainted_faultHostHazard (s : State) : (completeTainted s).faultHostHazard = s.faultHostHazard := rfl
@[simp] theorem completeTainted_tainted (s : State) : (completeTainted s).tainted = false := rfl
@[simp] theorem completeTainted_draws (s : State) : (completeTainted s).draws = s.draws + 76 := rfl
@[simp] theorem completeTainted_tape (s : State) : (completeTainted s).tape = s.tape := rfl
@[simp] theorem completeTainted_hostProg (s : State) : (completeTainted s).hostProg = s.hostProg := rfl
@[simp] theorem completeTainted_hostPc (s : State) : (completeTainted s).hostPc = s.hostPc := rfl
@[simp] theorem completeTainted_readData (s : State) : (completeTainted s).readData = s.readData := rfl
@[simp] theorem completeTainted_turns (s : State) : (completeTainted s).turns = s.turns := rfl

/-! ### platformReset: every field of the instance is as after reset, the Host and the draw counter go on -/

@[simp] theorem platformReset_initDone (s : State) : (platformReset s).initDone = State.reset.initDone := rfl
@[simp] theorem platformReset_pending (s : State) : (platformReset s).pending = State.reset.pending := rfl
@[simp] theorem platformReset_done (s : State) : (platformReset s).done = State.reset.done := rfl
@[simp] theorem platformReset_err (s : State) : (platformReset s).err = State.reset.err := rfl
@[simp] theorem platformReset_bodyComplete (s : State) : (platformReset s).bodyComplete = State.reset.bodyComplete := rfl
@[simp] theorem platformReset_crcMatch (s : State) : (platformReset s).crcMatch = State.reset.crcMatch := rfl
@[simp] theorem platformReset_errcode (s : State) : (platformReset s).errcode = State.reset.errcode := rfl
@[simp] theorem platformReset_addrA (s : State) : (platformReset s).addrA = State.reset.addrA := rfl
@[simp] theorem platformReset_lenA (s : State) : (platformReset s).lenA = State.reset.lenA := rfl
@[simp] theorem platformReset_addrD (s : State) : (platformReset s).addrD = State.reset.addrD := rfl
@[simp] theorem platformReset_crcOrder (s : State) : (platformReset s).crcOrder = State.reset.crcOrder := rfl
@[simp] theorem platformReset_kind (s : State) : (platformReset s).kind = State.reset.kind := rfl
@[simp] theorem platformReset_crcResult (s : State) : (platformReset s).crcResult = State.reset.crcResult := rfl
@[simp] theorem platformReset_outLen (s : State) : (platformReset s).outLen = State.reset.outLen := rfl
@[simp] theorem platformReset_bodyNeed (s : State) : (platformReset s).bodyNeed = State.reset.bodyNeed := rfl
@[simp] theorem platformReset_hdrTid (s : State) : (platformReset s).hdrTid = State.reset.hdrTid := rfl
@[simp] theorem platformReset_hdrProto (s : State) : (platformReset s).hdrProto = State.reset.hdrProto := rfl
@[simp] theorem platformReset_hdrLen (s : State) : (platformReset s).hdrLen = State.reset.hdrLen := rfl
@[simp] theorem platformReset_hdrUnit (s : State) : (platformReset s).hdrUnit = State.reset.hdrUnit := rfl
@[simp] theorem platformReset_hdrMsgid (s : State) : (platformReset s).hdrMsgid = State.reset.hdrMsgid := rfl
@[simp] theorem platformReset_keyLen (s : State) : (platformReset s).keyLen = State.reset.keyLen := rfl
@[simp] theorem platformReset_keyW (s : State) : (platformReset s).keyW = State.reset.keyW := rfl
@[simp] theorem platformReset_ndesc (s : State) : (platformReset s).ndesc = State.reset.ndesc := rfl
@[simp] theorem platformReset_desc (s : State) : (platformReset s).desc = State.reset.desc := rfl
@[simp] theorem platformReset_recs (s : State) : (platformReset s).recs = State.reset.recs := rfl
@[simp] theorem platformReset_tbl (s : State) : (platformReset s).tbl = State.reset.tbl := rfl
@[simp] theorem platformReset_dmem (s : State) : (platformReset s).dmem = State.reset.dmem := rfl
@[simp] theorem platformReset_faultBusMisuse (s : State) : (platformReset s).faultBusMisuse = State.reset.faultBusMisuse := rfl
@[simp] theorem platformReset_faultHostHazard (s : State) : (platformReset s).faultHostHazard = State.reset.faultHostHazard := rfl
@[simp] theorem platformReset_tainted (s : State) : (platformReset s).tainted = State.reset.tainted := rfl
@[simp] theorem platformReset_draws (s : State) : (platformReset s).draws = s.draws := rfl
@[simp] theorem platformReset_tape (s : State) : (platformReset s).tape = s.tape := rfl
@[simp] theorem platformReset_hostProg (s : State) : (platformReset s).hostProg = s.hostProg := rfl
@[simp] theorem platformReset_hostPc (s : State) : (platformReset s).hostPc = s.hostPc := rfl
@[simp] theorem platformReset_readData (s : State) : (platformReset s).readData = s.readData := rfl
@[simp] theorem platformReset_turns (s : State) : (platformReset s).turns = s.turns := rfl

end Sys2Proof.Machine
end

