-- ==== Sys2Proof/Laws/Ops.lean ====
section
/-! SUPPORT. What the shared operations can do, said once each: arrays, byte sequences, DMEM, checks and completion. -/

namespace Sys2Proof.Machine

/-! ### Arrays and byte sequences -/

@[simp] theorem tabulate_getElem {α : Type} (n : Nat) (f : Nat → α) (i : Nat) (h : i < n) : (tabulate n f)[i] = f i := by
  simp [tabulate]

@[simp] theorem tabulate_toList {α : Type} (n : Nat) (f : Nat → α) : (tabulate n f).toList = (List.range n).map f := by
  simp [tabulate]

@[simp] theorem bytes16_length (v : Half) : (bytes16 v).length = 2 := rfl

@[simp] theorem crcBytes_length (order : Bool) (c : Half) : (crcBytes order c).length = 2 := by
  cases order <;> rfl

@[simp] theorem hdrImage_length (s : State) (len : Half) : (hdrImage s len).length = 8 := by
  simp [hdrImage]

@[simp] theorem readBytes_length (m : Memory) (draw : Draw) (a n : Nat) : (m.readBytes draw a n).length = n := by
  simp [Memory.readBytes]

@[simp] theorem memRead_length (s : State) (k a n : Nat) : (memRead s k a n).length = n := by
  simp [memRead]

@[simp] theorem xorKey_length (s : State) (k : Nat) (bs : List Byte) : (xorKey s k bs).length = bs.length := by
  simp [xorKey]

@[simp] theorem ackFrame_length (s : State) : (ackFrame s).length = 8 + s.srcLen := by
  simp [ackFrame]

theorem readBytes_getElem (m : Memory) (draw : Draw) (a n i : Nat) (h : i < (m.readBytes draw a n).length) :
    (m.readBytes draw a n)[i] = m.readByte draw (a + i) := by
  simp [Memory.readBytes]

@[simp] theorem draw_tape (s : State) (k : Nat) : (s.draw k).tape = s.tape := rfl

@[simp] theorem draw_number (s : State) (k : Nat) : (s.draw k).number = s.draws + k := rfl

theorem freshWord_eq (s : State) (k : Nat) : freshWord s k = Config.freeWord s.tape (s.draws + k) := rfl

/-- Reading a written byte involves no free choice. -/
theorem readByte_of_lookup {m : Memory} {a : Nat} {v : Byte} (h : m.lookup a = some v) (draw : Draw) :
    m.readByte draw a = v := by
  simp [Memory.readByte, h]

/-- Reading an unwritten byte is the free choice of that read. -/
theorem readByte_of_unwritten {m : Memory} {a : Nat} (h : m.written a = false) (draw : Draw) :
    m.readByte draw a = Config.freeByte draw.tape draw.number a := by
  simp only [Memory.written, Option.isSome_eq_false_iff, Option.isNone_iff_eq_none] at h
  simp [Memory.readByte, h]

/-! ### DMEM -/

/-- What a stored byte changes: its own address and no other. -/
theorem lookup_store (m : Memory) (a x : Nat) (v : Byte) :
    (m.store a v).lookup x = if x = a then some v else m.lookup x := by
  induction m with
  | nil => simp [Memory.store, Memory.lookup, eq_comm]
  | cons c rest ih =>
    obtain ⟨k, b⟩ := c
    simp only [Memory.store]
    rcases Nat.lt_trichotomy a k with h | h | h
    · rw [if_pos h]
      simp only [Memory.lookup, eq_comm]
    · subst h
      rw [if_neg (Nat.lt_irrefl a), if_pos rfl]
      simp only [Memory.lookup, eq_comm (a := x)]
      split_ifs <;> rfl
    · rw [if_neg (by omega), if_neg (by omega)]
      simp only [Memory.lookup, ih]
      split_ifs <;> first | rfl | omega

/-- What a run of stored bytes changes: the addresses it covers and no other. -/
theorem lookup_storeBytes (m : Memory) (a : Nat) (bs : List Byte) (x : Nat) :
    (m.storeBytes a bs).lookup x = if a ≤ x ∧ x < a + bs.length then bs[x - a]? else m.lookup x := by
  induction bs generalizing m a with
  | nil =>
    have : ¬(a ≤ x ∧ x < a) := by omega
    simp [Memory.storeBytes, this]
  | cons b bs ih =>
    simp only [Memory.storeBytes, ih, lookup_store, List.length_cons]
    by_cases hx : x = a
    · subst hx
      simp
    · by_cases hin : a + 1 ≤ x ∧ x < a + 1 + bs.length
      · obtain ⟨k, hk⟩ : ∃ k, x - a = k + 1 := ⟨x - a - 1, by omega⟩
        have hk' : x - (a + 1) = k := by omega
        simp [hin, hk, hk', show a ≤ x ∧ x < a + (bs.length + 1) by omega]
      · simp only [if_neg hin, if_neg hx, if_neg (show ¬(a ≤ x ∧ x < a + (bs.length + 1)) by omega)]

/-- The addresses listed after a store. -/
theorem mem_store {m : Memory} {a : Nat} {v : Byte} {c : Host.Cell} (h : c ∈ m.store a v) : c = (a, v) ∨ c ∈ m := by
  induction m with
  | nil => simpa [Memory.store] using h
  | cons d rest ih =>
    obtain ⟨k, b⟩ := d
    simp only [Memory.store] at h
    split_ifs at h
    · simpa using h
    · rcases List.mem_cons.mp h with h | h
      · exact .inl h
      · exact .inr (List.mem_cons_of_mem _ h)
    · rcases List.mem_cons.mp h with h | h
      · exact .inr (by simp [h])
      · exact (ih h).imp_right (List.mem_cons_of_mem _)

theorem wf_iff (m : Memory) :
    m.wf = true ↔ (m.map Prod.fst).Pairwise (· < ·) ∧ ∀ c ∈ m, c.1 < Config.dmemSize := by
  simp [Memory.wf]

@[simp] theorem wf_nil : Memory.wf [] = true := rfl

/-- A store inside DMEM keeps the canonical form. -/
theorem store_wf {m : Memory} {a : Nat} (v : Byte) (h : m.wf = true) (ha : a < Config.dmemSize) :
    (m.store a v).wf = true := by
  rw [wf_iff] at h ⊢
  refine ⟨?_, fun c hc => ?_⟩
  · obtain ⟨hs, -⟩ := h
    induction m with
    | nil => simp [Memory.store]
    | cons d rest ih =>
      obtain ⟨k, b⟩ := d
      simp only [List.map_cons, List.pairwise_cons, List.mem_map, forall_exists_index, and_imp] at hs
      simp only [Memory.store]
      split_ifs with h1 h2
      · simp only [List.map_cons, List.pairwise_cons, List.mem_cons, List.mem_map]
        refine ⟨?_, ?_, hs.2⟩
        · rintro x (rfl | ⟨c, hc, rfl⟩)
          · exact h1
          · exact h1.trans (hs.1 _ c hc rfl)
        · rintro x ⟨c, hc, rfl⟩
          exact hs.1 _ c hc rfl
      · subst h2
        simp only [List.map_cons, List.pairwise_cons, List.mem_map]
        refine ⟨?_, hs.2⟩
        rintro x ⟨c, hc, rfl⟩
        exact hs.1 _ c hc rfl
      · simp only [List.map_cons, List.pairwise_cons, List.mem_map]
        refine ⟨?_, ih hs.2⟩
        rintro x ⟨c, hc, rfl⟩
        rcases mem_store hc with rfl | hc
        · simp only
          omega
        · exact hs.1 _ c hc rfl
  · rcases mem_store hc with rfl | hc
    · exact ha
    · exact h.2 c hc

/-- A run of bytes stored inside DMEM keeps the canonical form. -/
theorem storeBytes_wf {m : Memory} {a : Nat} {bs : List Byte} (h : m.wf = true)
    (ha : a + bs.length ≤ Config.dmemSize) : (m.storeBytes a bs).wf = true := by
  induction bs generalizing m a with
  | nil => exact h
  | cons b bs ih =>
    simp only [List.length_cons] at ha
    exact ih (store_wf b h (by omega)) (by omega)

theorem reset_dmem_wf : State.reset.dmem.wf = true := rfl

@[simp] theorem inRange_iff (a n : Nat) : inRange a n = true ↔ a + n ≤ Config.dmemSize := by
  simp [inRange]

@[simp] theorem inRange_false_iff (a n : Nat) : inRange a n = false ↔ Config.dmemSize < a + n := by
  simp [inRange]

@[simp] theorem overlaps_false_iff (a n d m : Nat) :
    overlaps a n d m = false ↔ ¬(0 < n ∧ 0 < m ∧ a < d + m ∧ d < a + n) := by
  simp only [overlaps, decide_eq_false_iff_not]

@[simp] theorem overlaps_iff (a n d m : Nat) :
    overlaps a n d m = true ↔ 0 < n ∧ 0 < m ∧ a < d + m ∧ d < a + n := by
  simp [overlaps]

/-! ### Checks and completion -/

@[simp] theorem require_true (e : ErrCode) (r : Staged) : require true e r = r := rfl

@[simp] theorem require_false (e : ErrCode) (r : Staged) : require false e r = .error e := rfl

/-- A check either lets the command go on or raises its error. -/
theorem require_cases (ok : Bool) (e : ErrCode) (r : Staged) :
    (ok = true ∧ require ok e r = r) ∨ (ok = false ∧ require ok e r = .error e) := by
  cases ok <;> simp

@[simp] theorem complete_ok (s t : State) : complete s (.ok t) = completeOk t := rfl

@[simp] theorem complete_error (s : State) (e : ErrCode) : complete s (.error e) = raiseError e s := rfl

@[simp] theorem finish_eq (s : State) (r : Staged) : finish s r = .next (complete s r) := rfl

/-- How a command ends: its staged state completed, or an error taken over the state it started in. -/
theorem finish_cases {s t : State} {r : Staged} (h : finish s r = .next t) :
    (∃ u, r = .ok u ∧ t = completeOk u) ∨ (∃ e, r = .error e ∧ t = raiseError e s) := by
  cases r with
  | ok u => exact .inl ⟨u, rfl, by simpa [finish, complete] using h.symm⟩
  | error e => exact .inr ⟨e, rfl, by simpa [finish, complete] using h.symm⟩

/-- What an error changes, and nothing else (60_exceptions.md R201). -/
theorem raiseError_eq (e : ErrCode) (s : State) :
    raiseError e s = { s with errcode := e.code, err := true, pending := none, done := true } := rfl

theorem errCode_ne_zero (e : ErrCode) : e.code ≠ 0x00#8 := by
  cases e <;> decide

theorem kind_ofCode_code (k : MessageKind) : MessageKind.ofCode k.code = k := by
  cases k <;> decide

end Sys2Proof.Machine
end

