-- ==== Sys2Proof/Laws/Exec.lean ====
section
/-! SUPPORT. What each command can do, said once: if it answers `next t`, then `t` is its staged state completed, or one of its
errors taken, each with the checks that lead there. -/

namespace Sys2Proof.Machine

/-- Every command ends as `complete` says, over some staged result. -/
theorem exec_complete (i : Instr) (s : State) : ∃ r : Staged, exec i s = .next (complete s r) := by
  cases i <;> exact ⟨_, rfl⟩

theorem next_inj {s t : State} (h : (Host.Outcome.next s : Host.Outcome State Fault Refusal) = .next t) : s = t := by
  injection h

theorem execNop_cases {s t : State} (h : execNop s = .next t) : t = completeOk s := (next_inj h).symm

theorem execIllegal_cases {s t : State} (h : execIllegal s = .next t) : t = raiseError .badOpcode s :=
  (next_inj h).symm

theorem execCrc_cases {c : Bool} {s t : State} (h : execCrc c s = .next t) :
    (inRange s.srcAddr s.srcLen = true ∧
      t = completeOk { s with crcResult := rangeCrc c s, draws := s.draws + 1 }) ∨
    (inRange s.srcAddr s.srcLen = false ∧ t = raiseError .badRange s) := by
  have h := next_inj h
  cases hr : inRange s.srcAddr s.srcLen <;> simp only [hr, require_true, require_false] at h <;> simp [← h]

theorem execCrcAppend_cases {c : Bool} {s t : State} (h : execCrcAppend c s = .next t) :
    (inRange s.srcAddr (s.srcLen + 2) = true ∧
      t = completeOk { s with
        dmem := s.dmem.storeBytes (s.srcAddr + s.srcLen) (crcBytes s.crcOrder (rangeCrc c s))
        crcResult := rangeCrc c s, draws := s.draws + 1 }) ∨
    (inRange s.srcAddr (s.srcLen + 2) = false ∧ t = raiseError .badRange s) := by
  have h := next_inj h
  cases hr : inRange s.srcAddr (s.srcLen + 2) <;> simp only [hr, require_true, require_false] at h <;> simp [← h]

theorem execCrcVerify_cases {c : Bool} {s t : State} (h : execCrcVerify c s = .next t) :
    (inRange s.srcAddr (s.srcLen + 2) = true ∧
      t = completeOk { s with
        crcMatch := crcMatchFlag (memRead s 1 (s.srcAddr + s.srcLen) 2) (crcBytes s.crcOrder (rangeCrc c s))
        crcResult := rangeCrc c s, draws := s.draws + 2 }) ∨
    (inRange s.srcAddr (s.srcLen + 2) = false ∧ t = raiseError .badRange s) := by
  have h := next_inj h
  cases hr : inRange s.srcAddr (s.srcLen + 2) <;> simp only [hr, require_true, require_false] at h <;> simp [← h]

theorem execDecodeHdr_cases {s t : State} (h : execDecodeHdr s = .next t) :
    (9 ≤ s.srcLen ∧ s.srcLen ≤ 300 ∧ inRange s.srcAddr s.srcLen = true ∧
      t = completeOk { s with
        hdrTid := BitVec.ofNat 16 (be16 (memRead s 0 s.srcAddr 8) 0)
        hdrProto := BitVec.ofNat 16 (be16 (memRead s 0 s.srcAddr 8) 2)
        hdrLen := BitVec.ofNat 16 (be16 (memRead s 0 s.srcAddr 8) 4)
        hdrUnit := byteAt (memRead s 0 s.srcAddr 8) 6
        hdrMsgid := byteAt (memRead s 0 s.srcAddr 8) 7
        bodyNeed := BitVec.ofNat 17 (bodyNeedCount (be16 (memRead s 0 s.srcAddr 8) 4) s.srcLen)
        bodyComplete := bodyCompleteFlag (be16 (memRead s 0 s.srcAddr 8) 4) s.srcLen
        draws := s.draws + 1 }) ∨
    (s.srcLen < 9 ∧ t = raiseError .frameTooShort s) ∨
    (300 < s.srcLen ∧ t = raiseError .frameTooLong s) ∨
    (9 ≤ s.srcLen ∧ s.srcLen ≤ 300 ∧ inRange s.srcAddr s.srcLen = false ∧ t = raiseError .badRange s) := by
  have h := next_inj h
  simp only [Config.minFrame, Config.maxFrame] at h
  by_cases h1 : 9 ≤ s.srcLen
  · by_cases h2 : s.srcLen ≤ 300
    · cases h3 : inRange s.srcAddr s.srcLen <;>
        simp only [h1, h2, h3, decide_true, require_true, require_false] at h <;> simp [← h, h1, h2]
    · simp only [h1, h2, decide_true, decide_false, require_true, require_false] at h
      simp [← h, Nat.lt_of_not_le h2]
  · simp only [h1, decide_false, require_false] at h
    simp [← h, Nat.lt_of_not_le h1]

theorem execClassify_cases {s t : State} (h : execClassify s = .next t) :
    ((s.hdrProto = 5#16 ∨ s.hdrProto = 6#16) ∧
      t = completeOk { s with kind := kindOf s.hdrMsgid s.hdrLen.toNat }) ∨
    (¬(s.hdrProto = 5#16 ∨ s.hdrProto = 6#16) ∧ t = raiseError .unsupportedProtocol s) := by
  have h := next_inj h
  by_cases hp : s.hdrProto = 5#16 ∨ s.hdrProto = 6#16
  · simp only [hp, decide_true, require_true] at h
    exact .inl ⟨hp, h.symm⟩
  · simp only [hp, decide_false, require_false] at h
    exact .inr ⟨hp, h.symm⟩

theorem execDeobf_cases {s t : State} (h : execDeobf s = .next t) :
    (0 < s.keyLen.toNat ∧ s.keyLen.toNat ≤ 16 ∧ inRange s.srcAddr s.srcLen = true ∧ inRange s.dstAddr s.srcLen = true ∧
      (s.dstAddr = s.srcAddr ∨ overlaps s.srcAddr s.srcLen s.dstAddr s.srcLen = false) ∧
      t = completeOk { s with
        dmem := s.dmem.storeBytes s.dstAddr (xorKey s s.keyLen.toNat (memRead s 0 s.srcAddr s.srcLen))
        draws := s.draws + 1 }) ∨
    (¬(0 < s.keyLen.toNat ∧ s.keyLen.toNat ≤ 16) ∧ t = raiseError .badKey s) ∨
    ((inRange s.srcAddr s.srcLen = false ∨ inRange s.dstAddr s.srcLen = false) ∧ t = raiseError .badRange s) ∨
    (s.dstAddr ≠ s.srcAddr ∧ overlaps s.srcAddr s.srcLen s.dstAddr s.srcLen = true ∧ t = raiseError .overlap s) := by
  have h := next_inj h
  simp only [Config.keyMax] at h
  by_cases hk : 0 < s.keyLen.toNat ∧ s.keyLen.toNat ≤ 16
  · cases h1 : inRange s.srcAddr s.srcLen
    · simp only [hk, h1, and_self, decide_true, require_true, require_false] at h
      simp [← h]
    · cases h2 : inRange s.dstAddr s.srcLen
      · simp only [hk, h1, h2, and_self, decide_true, require_true, require_false] at h
        simp [← h]
      · by_cases hd : s.dstAddr = s.srcAddr
        · simp only [hk, h1, hd, and_self, decide_true, Bool.true_or, require_true] at h
          rw [hd] at h2
          simp [← h, hk, hd]
        · cases ho : overlaps s.srcAddr s.srcLen s.dstAddr s.srcLen <;>
            simp only [hk, h1, h2, hd, ho, and_self, decide_true, decide_false, Bool.not_true, Bool.not_false,
              Bool.or_true, Bool.or_false, require_true, require_false] at h <;>
            simp [← h, hk, hd]
  · simp only [hk, decide_false, require_false] at h
    exact .inr (.inl ⟨hk, h.symm⟩)

theorem execParse_cases {s t : State} (h : execParse s = .next t) :
    (s.ndesc.toNat ≤ 64 ∧ s.descInUse.all descLegal = true ∧ inRange s.srcAddr s.srcLen = true ∧
      71 + s.recSize ≤ s.srcLen ∧
      t = completeOk { s with
        recs := tabulate 64 fun i => if i < s.ndesc.toNat then fieldValue s i else s.recs.toList.getD i 0#32
        draws := s.draws + s.ndesc.toNat }) ∨
    (¬(s.ndesc.toNat ≤ 64 ∧ s.descInUse.all descLegal = true) ∧ t = raiseError .badDesc s) ∨
    (inRange s.srcAddr s.srcLen = false ∧ t = raiseError .badRange s) ∨
    (s.srcLen < 71 + s.recSize ∧ t = raiseError .truncatedRecord s) := by
  have h := next_inj h
  simp only [Config.ndescMax, Config.recBase] at h
  by_cases h1 : s.ndesc.toNat ≤ 64
  · cases h2 : s.descInUse.all descLegal
    · simp only [h1, h2, decide_true, require_true, require_false] at h
      simp [← h]
    · cases h3 : inRange s.srcAddr s.srcLen
      · simp only [h1, h2, h3, decide_true, require_true, require_false] at h
        simp [← h]
      · by_cases h4 : 71 + s.recSize ≤ s.srcLen
        · simp only [h1, h2, h3, h4, decide_true, require_true] at h
          simp [← h, h1, h4]
        · simp only [h1, h2, h3, h4, decide_true, decide_false, require_true, require_false] at h
          simp [← h, Nat.lt_of_not_le h4]
  · simp only [h1, decide_false, require_false] at h
    simp [← h, h1]

theorem execBuildHdr_cases {s t : State} (h : execBuildHdr s = .next t) :
    (inRange s.dstAddr 8 = true ∧
      t = completeOk { s with dmem := s.dmem.storeBytes s.dstAddr (hdrImage s s.lenA), outLen := 8#16 }) ∨
    (inRange s.dstAddr 8 = false ∧ t = raiseError .badRange s) := by
  have h := next_inj h
  cases hr : inRange s.dstAddr 8 <;> simp only [hr, require_true, require_false] at h <;> simp [← h]

theorem execBuildAck_cases {s t : State} (h : execBuildAck s = .next t) :
    (inRange s.srcAddr s.srcLen = true ∧ inRange s.dstAddr (s.srcLen + 10) = true ∧
      replyFits s.srcAddr s.srcLen s.dstAddr (s.srcLen + 10) = true ∧
      t = completeOk { s with
        dmem := s.dmem.storeBytes s.dstAddr
          (ackFrame s ++ crcBytes s.crcOrder (crc16 s.tbl Config.crcInit (ackFrame s)))
        crcResult := crc16 s.tbl Config.crcInit (ackFrame s)
        outLen := BitVec.ofNat 16 (s.srcLen + 10), draws := s.draws + 1 }) ∨
    ((inRange s.srcAddr s.srcLen = false ∨ inRange s.dstAddr (s.srcLen + 10) = false) ∧ t = raiseError .badRange s) ∨
    (replyFits s.srcAddr s.srcLen s.dstAddr (s.srcLen + 10) = false ∧ t = raiseError .overlap s) := by
  have h := next_inj h
  cases h1 : inRange s.srcAddr s.srcLen
  · simp only [h1, require_false] at h
    simp [← h]
  · cases h2 : inRange s.dstAddr (s.srcLen + 10)
    · simp only [h1, h2, require_true, require_false] at h
      simp [← h]
    · cases h3 : replyFits s.srcAddr s.srcLen s.dstAddr (s.srcLen + 10) <;>
        simp only [h1, h2, h3, require_true, require_false] at h <;> simp [← h]

theorem execPingEcho_cases {s t : State} (h : execPingEcho s = .next t) :
    (2 ≤ s.hdrLen.toNat ∧ inRange s.srcAddr (s.hdrLen.toNat - 2) = true ∧
      inRange s.dstAddr (s.hdrLen.toNat - 2 + 8) = true ∧
      replyFits s.srcAddr (s.hdrLen.toNat - 2) s.dstAddr (s.hdrLen.toNat - 2 + 8) = true ∧
      t = completeOk { s with
        dmem := s.dmem.storeBytes s.dstAddr (hdrImage s s.hdrLen ++ memRead s 0 s.srcAddr (s.hdrLen.toNat - 2))
        outLen := BitVec.ofNat 16 (s.hdrLen.toNat - 2 + 8), draws := s.draws + 1 }) ∨
    (s.hdrLen.toNat < 2 ∧ t = raiseError .badLength s) ∨
    ((inRange s.srcAddr (s.hdrLen.toNat - 2) = false ∨ inRange s.dstAddr (s.hdrLen.toNat - 2 + 8) = false) ∧
      t = raiseError .badRange s) ∨
    (replyFits s.srcAddr (s.hdrLen.toNat - 2) s.dstAddr (s.hdrLen.toNat - 2 + 8) = false ∧
      t = raiseError .overlap s) := by
  have h := next_inj h
  by_cases h0 : 2 ≤ s.hdrLen.toNat
  · cases h1 : inRange s.srcAddr (s.hdrLen.toNat - 2)
    · simp only [h0, h1, decide_true, require_true, require_false] at h
      simp [← h]
    · cases h2 : inRange s.dstAddr (s.hdrLen.toNat - 2 + 8)
      · simp only [h0, h1, h2, decide_true, require_true, require_false] at h
        simp [← h]
      · cases h3 : replyFits s.srcAddr (s.hdrLen.toNat - 2) s.dstAddr (s.hdrLen.toNat - 2 + 8) <;>
          simp only [h0, h1, h2, h3, decide_true, require_true, require_false] at h <;> simp [← h, h0]
  · simp only [h0, decide_false, require_false] at h
    simp [← h, Nat.lt_of_not_le h0]

end Sys2Proof.Machine
end

