-- ==== Sys2Proof/Laws/PerInstr.lean ====
section
/-! SUPPORT. Facts about every command as syntax, one lemma per constructor of `Instr`. -/

namespace Sys2Proof.Laws

/-- The command word of `i` is a legal CMD32: RES is 0, OP is in the opcode map, and C is 1 only on the CRC family
(30_encoding.md R80, R81, R83, R84). -/
def EncodeLegal.Statement (i : Instr) : Prop := (Cmd32.ofWord (encode i)).wellFormed = true

theorem EncodeLegal.nop : EncodeLegal.Statement .nop := by unfold Statement; decide
theorem EncodeLegal.crc (c : Bool) : EncodeLegal.Statement (.crc c) := by unfold Statement; cases c <;> decide
theorem EncodeLegal.crcAppend (c : Bool) : EncodeLegal.Statement (.crcAppend c) := by unfold Statement; cases c <;> decide
theorem EncodeLegal.crcVerify (c : Bool) : EncodeLegal.Statement (.crcVerify c) := by unfold Statement; cases c <;> decide
theorem EncodeLegal.decodeHdr : EncodeLegal.Statement .decodeHdr := by unfold Statement; decide
theorem EncodeLegal.classify : EncodeLegal.Statement .classify := by unfold Statement; decide
theorem EncodeLegal.deobf : EncodeLegal.Statement .deobf := by unfold Statement; decide
theorem EncodeLegal.parse : EncodeLegal.Statement .parse := by unfold Statement; decide
theorem EncodeLegal.buildHdr : EncodeLegal.Statement .buildHdr := by unfold Statement; decide
theorem EncodeLegal.buildAck : EncodeLegal.Statement .buildAck := by unfold Statement; decide
theorem EncodeLegal.pingEcho : EncodeLegal.Statement .pingEcho := by unfold Statement; decide

end Sys2Proof.Laws
end

