-- ==== Sys2Proof/Laws/Step.lean ====
section
/-! SUPPORT. What a Host access, a step of the Host, a step of the Engine and a step of the machine can do, said once each. -/

namespace Sys2Proof.Machine

/-- A register access that is no read does one of four things. -/
theorem hostWriteReg_cases (r : RegName) (v : Word) (s : State) :
    (regAccess r = .readOnly ∧ hostWriteReg r v s = s) ∨
    (regAccess r ≠ .readOnly ∧ s.busy = true ∧ hostWriteReg r v s = hazard (writeReg r (freshWord s 0) s)) ∨
    (regAccess r ≠ .readOnly ∧ s.busy = false ∧ hostWriteReg r v s = writeReg r v s) := by
  by_cases h : regAccess r = .readOnly
  · simp [hostWriteReg, h]
  · cases hb : s.busy <;> simp [hostWriteReg, h, hb]

/-- What a write to a register leaves alone: everything but the RW registers and, for CMD, what the issue changes
(20_memory.md R71, 45_control.md R190). -/
theorem writeReg_frame (r : RegName) (v : Word) (s : State) :
    (writeReg r v s).crcResult = s.crcResult ∧ (writeReg r v s).outLen = s.outLen ∧
    (writeReg r v s).bodyNeed = s.bodyNeed ∧ (writeReg r v s).kind = s.kind ∧ (writeReg r v s).recs = s.recs ∧
    (writeReg r v s).bodyComplete = s.bodyComplete ∧ (writeReg r v s).crcMatch = s.crcMatch ∧
    (writeReg r v s).tbl = s.tbl ∧ (writeReg r v s).initDone = s.initDone ∧ (writeReg r v s).dmem = s.dmem ∧
    (writeReg r v s).faultBusMisuse = s.faultBusMisuse ∧ (writeReg r v s).faultHostHazard = s.faultHostHazard ∧
    (writeReg r v s).tainted = s.tainted ∧ (writeReg r v s).draws = s.draws ∧ (writeReg r v s).tape = s.tape ∧
    (writeReg r v s).hostProg = s.hostProg ∧ (writeReg r v s).hostPc = s.hostPc ∧
    (writeReg r v s).readData = s.readData ∧ (writeReg r v s).turns = s.turns := by
  cases r <;> exact ⟨rfl, rfl, rfl, rfl, rfl, rfl, rfl, rfl, rfl, rfl, rfl, rfl, rfl, rfl, rfl, rfl, rfl, rfl, rfl⟩

theorem hostReadReg_cases (r : RegName) (s : State) : ∃ v, hostReadReg r s = returnRead v s := by
  unfold hostReadReg
  split <;> exact ⟨_, rfl⟩

theorem hostReadByte_cases (a : Nat) (s : State) : ∃ v, hostReadByte a s = returnRead v s := by
  unfold hostReadByte
  split
  · split <;> exact ⟨_, rfl⟩
  · exact ⟨_, rfl⟩

theorem hostWriteByte_cases (a : Nat) (v : Byte) (s : State) :
    (Config.dmemSize ≤ a ∧ hostWriteByte a v s = s) ∨
    (a < Config.dmemSize ∧ s.busy = true ∧
      hostWriteByte a v s = hazard { s with dmem := s.dmem.store a ((freshWord s 0).setWidth 8) }) ∨
    (a < Config.dmemSize ∧ s.busy = false ∧ hostWriteByte a v s = { s with dmem := s.dmem.store a v }) := by
  by_cases h : a < Config.dmemSize
  · cases hb : s.busy <;> simp [hostWriteByte, h, hb]
  · simp [hostWriteByte, h, Nat.le_of_not_lt h]

/-- Everything a Host access can do: a misuse, a read, nothing, a write while idle, or a hazard. -/
theorem hostAccess_cases (acc : BusAccess) (s : State) :
    (hostAccess acc s = misuse acc s) ∨
    (∃ v, hostAccess acc s = returnRead v s) ∨
    (hostAccess acc s = s) ∨
    (∃ r v, regAccess r ≠ .readOnly ∧ s.busy = false ∧ hostAccess acc s = writeReg r v s) ∨
    (∃ r v, regAccess r ≠ .readOnly ∧ s.busy = true ∧ hostAccess acc s = hazard (writeReg r v s)) ∨
    (∃ a v, a < Config.dmemSize ∧ s.busy = false ∧ hostAccess acc s = { s with dmem := s.dmem.store a v }) ∨
    (∃ a v, a < Config.dmemSize ∧ s.busy = true ∧ hostAccess acc s = hazard { s with dmem := s.dmem.store a v }) := by
  by_cases h1 : BusAccess.allowed acc = true
  · by_cases h2 : acc.offset.toNat < Config.dmemWindow
    · simp only [hostAccess, h1, h2, Bool.not_true, Bool.false_eq_true, if_false, if_true, registerAccess]
      split
      · rename_i r v _ _
        rcases hostWriteReg_cases r v s with ⟨_, h⟩ | ⟨ha, hb, h⟩ | ⟨ha, hb, h⟩
        · exact .inr (.inr (.inl h))
        · exact .inr (.inr (.inr (.inr (.inl ⟨r, _, ha, hb, h⟩))))
        · exact .inr (.inr (.inr (.inl ⟨r, _, ha, hb, h⟩)))
      · exact .inr (.inl (hostReadReg_cases _ s))
      · exact .inr (.inr (.inl rfl))
      · exact .inr (.inl ⟨_, rfl⟩)
    · simp only [hostAccess, h1, h2, Bool.not_true, Bool.false_eq_true, if_false, byteAccess]
      split
      · rename_i v _
        rcases hostWriteByte_cases (acc.offset.toNat - Config.dmemWindow) (v.setWidth 8) s with
          ⟨_, h⟩ | ⟨ha, hb, h⟩ | ⟨ha, hb, h⟩
        · exact .inr (.inr (.inl h))
        · exact .inr (.inr (.inr (.inr (.inr (.inr ⟨_, _, ha, hb, h⟩)))))
        · exact .inr (.inr (.inr (.inr (.inr (.inl ⟨_, _, ha, hb, h⟩)))))
      · exact .inr (.inl (hostReadByte_cases _ s))
  · exact .inl (by simp [hostAccess, h1])

/-- A step of the Host is one access and the next place, a new place, or nothing. -/
theorem hostStep_cases (s : State) :
    (hostStep s = s) ∨
    (∃ acc, s.hostProg[s.hostPc]? = some (.bus acc) ∧ hostStep s = { hostAccess acc s with hostPc := s.hostPc + 1 }) ∨
    (∃ pc, hostStep s = { s with hostPc := pc }) := by
  unfold hostStep
  split
  · exact .inl rfl
  · rename_i op h
    cases op with
    | bus acc => exact .inr (.inl ⟨acc, h, rfl⟩)
    | branchIf bit on target => exact .inr (.inr ⟨_, rfl⟩)
    | jump target => exact .inr (.inr ⟨_, rfl⟩)
    | halt => exact .inr (.inr ⟨_, rfl⟩)

/-- The Host's first access in its encoding is the access it makes in its step (30_encoding.md R93). -/
theorem accessesFrom_bus {prog : List HostOp} {pc : Nat} {acc : BusAccess} (h : prog[pc]? = some (.bus acc))
    (fuel : Nat) (last : Word) (reads : List Word) :
    accessesFrom prog (fuel + 1) pc last reads =
      acc :: match acc.value, reads with
        | some _, _ => accessesFrom prog fuel (pc + 1) last reads
        | none, [] => []
        | none, v :: rest => accessesFrom prog fuel (pc + 1) v rest := by
  obtain ⟨o, w, v⟩ := acc
  cases v <;> cases reads <;> simp only [accessesFrom, h, HostOp.triple, HostOp.nextPc]

/-- An operation without an access only moves the Host (30_encoding.md R93). -/
theorem accessesFrom_move {prog : List HostOp} {pc : Nat} {op : HostOp} (h : prog[pc]? = some op)
    (ht : HostOp.triple op = none) (fuel : Nat) (last : Word) (reads : List Word) :
    accessesFrom prog (fuel + 1) pc last reads = accessesFrom prog fuel (HostOp.nextPc op last pc) last reads := by
  simp [accessesFrom, h, ht]

/-- A step of the Engine is the table build, a completion with a free result, a command, or the end of an illegal word. -/
theorem engineStep_cases {s t : State} (h : engineStep s = .next t) :
    (s.initDone = false ∧ t = buildTable s) ∨
    (s.initDone = true ∧ s.pending = none ∧ t = s) ∨
    (s.initDone = true ∧ s.tainted = true ∧ t = completeTainted s) ∨
    (∃ w i, s.initDone = true ∧ s.pending = some w ∧ decode w = .command i ∧ exec i s = .next t) ∨
    (∃ w why, s.initDone = true ∧ s.pending = some w ∧ decode w = .illegal why ∧ t = raiseError .badOpcode s) := by
  unfold engineStep at h
  cases hi : s.initDone
  · simp only [hi, Bool.not_false, if_true] at h
    exact .inl ⟨rfl, (next_inj h).symm⟩
  · simp only [hi, Bool.not_true, Bool.false_eq_true, if_false] at h
    cases hp : s.pending with
    | none =>
      simp only [hp] at h
      exact .inr (.inl ⟨rfl, rfl, (next_inj h).symm⟩)
    | some w =>
      simp only [hp] at h
      split at h
      · rename_i ht
        exact .inr (.inr (.inl ⟨rfl, ht, (next_inj h).symm⟩))
      · unfold runWord at h
        split at h
        · rename_i i hd
          exact .inr (.inr (.inr (.inl ⟨w, i, rfl, rfl, hd, h⟩)))
        · rename_i why hd
          exact .inr (.inr (.inr (.inr ⟨w, why, rfl, rfl, hd, execIllegal_cases h⟩)))

/-- A step of the machine is a step of one agent, taken in the state without the turn it uses up. -/
theorem step_cases {s t : State} (h : step s = .next t) :
    ∃ u, (u = s ∨ u = { s with turns := s.turns.tail }) ∧
      (t = hostStep u ∨ (engineEnabled u = true ∧ engineStep u = .next t) ∨ t = u ∨
        (s.turns.head? = some .reset ∧ t = platformReset u)) := by
  unfold step advance at h
  split at h
  · refine ⟨s, .inl rfl, ?_⟩
    split at h
    · rename_i he
      exact .inr (.inl ⟨he, h⟩)
    · exact .inl (next_inj h).symm
  · rename_i rest hr
    exact ⟨{ s with turns := rest }, .inr (by simp [hr]), .inl (next_inj h).symm⟩
  · rename_i rest hr
    refine ⟨{ s with turns := rest }, .inr (by simp [hr]), ?_⟩
    split at h
    · rename_i he
      exact .inr (.inl ⟨he, h⟩)
    · exact .inr (.inr (.inl (next_inj h).symm))
  · rename_i rest hr
    exact ⟨{ s with turns := rest }, .inr (by simp [hr]), .inr (.inr (.inr ⟨by simp [hr], (next_inj h).symm⟩))⟩

end Sys2Proof.Machine
end

