-- ==== Sys2Proof/Tests/Slice0.lean ====
section
/-! SUPPORT. Tests against the vectors of 95_test_vectors.md, the WellFormed smoke test, and for every statement with hypotheses a
state and operands that meet all of them (`witness_…`). -/

namespace Sys2Proof.Tests

open Sys2Proof.Machine

-- Kernel-checked tests wait for one another: one at a time, so that no thread is held for each of them.
set_option Elab.async false

/-! ### Helpers -/

/-- After reset and the table build, with the given DMEM bytes from address `a` on. -/
def ready (a : Nat) (bs : List Byte) : State := { buildTable State.reset with dmem := Memory.storeBytes [] a bs }

/-- The next state, where the outcome is one. -/
def after (s : State) : Host.Outcome State Fault Refusal → State
  | .next t => t
  | .fault _ => s
  | .refused _ => s

/-- A command run in a state. -/
def ran (i : Instr) (s : State) : State := after s (exec i s)

/-- A command word run through issue and the Engine's step. -/
def issued (w : Word) (s : State) : State := after s (step { issue w s with turns := [.engine] })

/-- The listed bytes of a range. -/
def shown (m : Memory) (a n : Nat) : List (Option Byte) := (List.range n).map fun i => m.lookup (a + i)

/-- Operand registers set. -/
def ops (a n d : Half) (s : State) : State := { s with addrA := a, lenA := n, addrD := d }

/-- A 32-bit Host write, and a 32-bit Host read's value. -/
def wr32 (off : WinOff) (v : Word) (s : State) : State := hostAccess { offset := off, width := 32, value := some v } s
def rd32 (off : WinOff) (s : State) : Word := (hostAccess { offset := off, width := 32, value := none } s).readData

/-- ASCII "123456789" at 0x010 with ADDR_A, LEN_A on it (V2.16). -/
def digits : State :=
  ops 0x010#16 9#16 0#16 (ready 0x010 [0x31#8, 0x32#8, 0x33#8, 0x34#8, 0x35#8, 0x36#8, 0x37#8, 0x38#8, 0x39#8])

/-- The ping frame of V3 at address 0. -/
def pingFrame : List Byte :=
  [0x00#8, 0x02#8, 0x00#8, 0x06#8, 0x00#8, 0x0C#8, 0x01#8, 0x16#8,
   0x41#8, 0x42#8, 0x43#8, 0x44#8, 0x45#8, 0x46#8, 0x47#8, 0x48#8, 0x49#8, 0x4A#8]

/-- V3 with a given LEN_A. -/
def pingAt (n : Half) : State := ops 0#16 n 0#16 (ready 0 pingFrame)

/-- The header registers of V7.1 and V8. -/
def ackHdr (s : State) : State := { s with hdrTid := 7#16, hdrProto := 6#16, hdrUnit := 1#8, hdrMsgid := 0x03#8 }

/-- V8.1. -/
def ackState : State := ackHdr (ops 0x100#16 1#16 0x200#16 (ready 0x100 [0x47#8]))

/-- V5.3. -/
def deobfState : State :=
  ops 0x300#16 9#16 0x400#16 (ready 0x300 [1#8, 2#8, 3#8, 4#8, 5#8, 6#8, 7#8, 8#8, 9#8])

/-- V6.1, its body bytes 71 .. 76. -/
def parseState (n : Half) : State :=
  { ops 0x200#16 n 0#16 (ready 0x247 [0xFF#8, 0xFF#8, 0xFF#8, 0xFE#8, 0x80#8, 0x00#8]) with
    ndesc := 3#7
    desc := ((Vector.replicate 64 0#18).set 0 0x20000#18).set 1 0x10004#18 |>.set 2 0x10002#18 }

/-- CLASSIFY's header registers (V4). -/
def header (p : Half) (m : Byte) (len : Half) : State :=
  { ready 0 [] with hdrProto := p, hdrMsgid := m, hdrLen := len }

/-- A command word pending after the table build. -/
def waiting (w : Word) : State := { ready 0 [] with pending := some w }

/-! ### WellFormed refuses what is ill formed -/

theorem test_wf_refuses_reserved_bits : Cmd32.wellFormed { op := 0x01#8, c := false, res := 1#23 } = false := by decide
theorem test_wf_refuses_reserved_op : Cmd32.wellFormed { op := 0x04#8, c := false, res := 0#23 } = false := by decide
theorem test_wf_refuses_continue_on_parse : Cmd32.wellFormed { op := 0x30#8, c := true, res := 0#23 } = false := by decide
theorem test_wf_accepts_crc_continue : Cmd32.wellFormed { op := 0x01#8, c := true, res := 0#23 } = true := by decide
theorem test_wf_refuses_wb_past_dmem : AsmStmt.wellFormed (.wb 0x800#12 0#8) = false := by decide
theorem test_wf_refuses_rb_past_dmem : AsmStmt.wellFormed (.rb 0x800#12) = false := by decide
theorem test_wf_refuses_wbs_past_dmem : AsmStmt.wellFormed (.wbs 0x7FF#12 [0#8, 0#8]) = false := by decide
theorem test_wf_refuses_wbs_of_nothing : AsmStmt.wellFormed (.wbs 0#12 []) = false := by decide
theorem test_wf_refuses_brc_bit_32 : AsmStmt.wellFormed (.brc .status 32 0) = false := by decide
theorem test_wf_refuses_brs_bit_32 : AsmStmt.wellFormed (.brs .status 32 0) = false := by decide
theorem test_wf_refuses_label_twice : asmWellFormed [.label 0, .label 0] = false := by decide
theorem test_wf_refuses_label_missing : asmWellFormed [.jmp 0] = false := by decide

/-! ### Decoding: words written out from 30_encoding.md R80, R81 and V10 -/

theorem test_decode_nop : decode 0x00000000#32 = .command .nop := by decide
theorem test_decode_crc : decode 0x00000001#32 = .command (.crc false) := by decide
theorem test_decode_crc_c : decode 0x00000101#32 = .command (.crc true) := by decide
theorem test_decode_crcAppend : decode 0x00000002#32 = .command (.crcAppend false) := by decide
theorem test_decode_crcAppend_c : decode 0x00000102#32 = .command (.crcAppend true) := by decide
theorem test_decode_crcVerify : decode 0x00000003#32 = .command (.crcVerify false) := by decide
theorem test_decode_crcVerify_c : decode 0x00000103#32 = .command (.crcVerify true) := by decide
theorem test_decode_decodeHdr : decode 0x00000010#32 = .command .decodeHdr := by decide
theorem test_decode_classify : decode 0x00000011#32 = .command .classify := by decide
theorem test_decode_deobf : decode 0x00000020#32 = .command .deobf := by decide
theorem test_decode_parse : decode 0x00000030#32 = .command .parse := by decide
theorem test_decode_buildHdr : decode 0x00000040#32 = .command .buildHdr := by decide
theorem test_decode_buildAck : decode 0x00000041#32 = .command .buildAck := by decide
theorem test_decode_pingEcho : decode 0x00000042#32 = .command .pingEcho := by decide

/-- The reserved words of V10, V2.26 and V8.9, by the reason they are illegal. -/
theorem test_decode_illegal_words :
    [0x00000200#32, 0x80000001#32, 0x00000201#32].map decode = List.replicate 3 (.illegal .reservedBits) ∧
      [0x00000004#32, 0x00000012#32, 0x00000021#32, 0x00000043#32, 0x000000FF#32].map decode =
        List.replicate 5 (.illegal .reservedOp) ∧
      [0x00000100#32, 0x00000110#32, 0x00000141#32].map decode = List.replicate 3 (.illegal .continueNotAllowed) := by decide

/-- V8.9: the command ends with BAD_OPCODE. -/
theorem test_illegal_word_ends_with_bad_opcode : (issued 0x141#32 (ready 0 [])).errcode = 0x10#8 := by decide +kernel

theorem test_table_word_and_fetch :
    decodeTableWord 32 0x00000042 = some .pingEcho ∧ decodeTableWord 32 0x00000142 = none ∧
      step (State.reset.withFetchWord 32 0x41) = exec .buildAck (State.reset.withFetchWord 32 0x41) := ⟨by decide, by decide, rfl⟩

/-! ### The commands -/

/-- V10.1: NOP clears an earlier error. -/
theorem test_nop_clears_the_error :
    (issued 0#32 (ran .decodeHdr (pingAt 8#16))).errcode = 0x00#8 ∧
      statusWord (issued 0#32 (ran .decodeHdr (pingAt 8#16))) = 0x05#32 := by decide +kernel

/-- V1: entries of the table. -/
theorem test_table_entries :
    rd32 0x400#13 (ready 0 []) = 0#32 ∧ rd32 0x404#13 (ready 0 []) = 0xC0C1#32 ∧ rd32 0x600#13 (ready 0 []) = 0xA001#32 ∧
      rd32 0x7FC#13 (ready 0 []) = 0x4040#32 ∧ rd32 0x568#13 (ready 0 []) = 0x3B80#32 := by decide +kernel

/-- V2.2, and V2.10 with V2.11. -/
theorem test_crc_digits : (ran (.crc false) digits).crcResult = 0x4B37#16 := by decide +kernel
theorem test_crc_in_two_pieces :
    (ran (.crc false) { digits with lenA := 4#16 }).crcResult = 0x30BA#16 ∧
      (ran (.crc true) { ran (.crc false) { digits with lenA := 4#16 } with addrA := 0x14#16, lenA := 5#16 }).crcResult =
        0x4B37#16 := by decide +kernel

/-- V2.16, V2.17. -/
theorem test_crcAppend_both_orders :
    shown (ran (.crcAppend false) digits).dmem 0x19 2 = [some 0x4B#8, some 0x37#8] ∧
      shown (ran (.crcAppend false) { digits with crcOrder := true }).dmem 0x19 2 = [some 0x37#8, some 0x4B#8] := by
  decide +kernel
/-- V2.18, V2.19. -/
theorem test_crcAppend_at_the_end :
    shown (ran (.crcAppend false) (ops 0x7FE#16 0#16 0#16 (ready 0 []))).dmem 0x7FE 2 = [some 0xFF#8, some 0xFF#8] ∧
      (ran (.crcAppend false) (ops 0x7FF#16 0#16 0#16 (ready 0 []))).errcode = 0x11#8 := by decide +kernel

/-- V2.21, V2.24. -/
theorem test_crcVerify_finds_the_order :
    statusWord (ran (.crcVerify false) (ran (.crcAppend false) digits)) = 0x45#32 ∧
      (ran (.crcVerify false) { ran (.crcAppend false) digits with crcOrder := true }).crcMatch = false := by
  decide +kernel
/-- V2.22. -/
theorem test_crcVerify_mismatch_is_no_error :
    statusWord (ran (.crcVerify false)
      { ran (.crcAppend false) digits with dmem := (ran (.crcAppend false) digits).dmem.store 0x19 0x4A#8 }) = 0x05#32 := by
  decide +kernel

/-- V3.3, V3.6. -/
theorem test_decodeHdr_fields :
    (let t := ran .decodeHdr (pingAt 18#16)
     (t.hdrTid, t.hdrProto, t.hdrLen, t.hdrUnit, t.hdrMsgid, statusWord t) = (2#16, 6#16, 12#16, 1#8, 0x16#8, 0x35#32)) ∧
      (ran .decodeHdr (pingAt 9#16)).bodyNeed = 9#17 ∧ (ran .decodeHdr (pingAt 9#16)).bodyComplete = false := by
  decide +kernel
/-- V3.2, V3.8, V3.10, V3.11. -/
theorem test_decodeHdr_errors :
    (ran .decodeHdr (pingAt 8#16)).errcode = 0x01#8 ∧ (ran .decodeHdr (pingAt 301#16)).errcode = 0x02#8 ∧
      (ran .decodeHdr { pingAt 5#16 with addrA := 0x7FF#16 }).errcode = 0x01#8 ∧
      (ran .decodeHdr { pingAt 9#16 with addrA := 0x7FA#16 }).errcode = 0x11#8 := by decide +kernel

/-- V4.1 to V4.15. -/
theorem test_classify_kinds :
    [(5#16, 0x04#8, 257#16), (5#16, 0x04#8, 10#16), (6#16, 0x03#8, 257#16), (5#16, 0x03#8, 258#16), (6#16, 0x16#8, 12#16),
      (5#16, 0x16#8, 32#16), (6#16, 0x16#8, 22#16), (5#16, 0x50#8, 257#16), (5#16, 0x50#8, 12#16), (6#16, 0x19#8, 0#16),
      (6#16, 0xFF#8, 12#16)].map (fun (p, m, l) => rd32 0x02C#13 (ran .classify (header p m l))) =
      [1#32, 0#32, 5#32, 0#32, 3#32, 3#32, 0#32, 6#32, 0#32, 7#32, 0#32] := by decide +kernel
/-- V4.16, V4.19. -/
theorem test_classify_other_protocols :
    (ran .classify (header 0#16 0x04#8 257#16)).errcode = 0x03#8 ∧
      (ran .classify (header 0x0105#16 0x04#8 257#16)).errcode = 0x03#8 := by decide +kernel

/-- V5.3. -/
theorem test_deobf_growatt :
    shown (ran .deobf deobfState).dmem 0x400 9 =
      [0x46#8, 0x70#8, 0x6C#8, 0x73#8, 0x64#8, 0x72#8, 0x73#8, 0x4F#8, 0x7B#8].map some := by decide +kernel
/-- V5.9, V5.10, V5.12, V5.13. -/
theorem test_deobf_errors :
    (ran .deobf { deobfState with keyLen := 17#5 }).errcode = 0x12#8 ∧
      (ran .deobf { deobfState with keyLen := 0#5, addrA := 0x7FF#16 }).errcode = 0x12#8 ∧
      (ran .deobf { deobfState with addrD := 0x7FF#16 }).errcode = 0x11#8 ∧
      (ran .deobf { deobfState with addrD := 0x301#16 }).errcode = 0x13#8 := by decide +kernel

/-- V6.1. -/
theorem test_parse_overlapping_fields :
    [0, 1, 2, 3].map (fun i => (ran .parse (parseState 77#16)).recs.toList.getD i 1#32) =
      [0xFFFFFFFE#32, 0x00008000#32, 0x0000FFFE#32, 0#32] := by decide +kernel
/-- V6.2, V6.3, V6.5, V6.8. -/
theorem test_parse_errors :
    (ran .parse (parseState 76#16)).errcode = 0x04#8 ∧
      (ran .parse { parseState 77#16 with desc := (parseState 77#16).desc.set 1 0x30004#18 }).errcode = 0x14#8 ∧
      (ran .parse { parseState 77#16 with ndesc := 65#7 }).errcode = 0x14#8 ∧
      (ran .parse { parseState 77#16 with addrA := 0x7C0#16 }).errcode = 0x11#8 := by decide +kernel

/-- V7.1, V7.3. -/
theorem test_buildHdr :
    shown (ran .buildHdr { ackState with lenA := 3#16 }).dmem 0x200 9 =
        ([0x00#8, 0x07#8, 0x00#8, 0x06#8, 0x00#8, 0x03#8, 0x01#8, 0x03#8].map some) ++ [none] ∧
      (ran .buildHdr { ackState with addrD := 0x7F9#16 }).errcode = 0x11#8 := by decide +kernel

/-- V8.1. -/
theorem test_buildAck :
    shown (ran .buildAck ackState).dmem 0x200 11 =
        [0x00#8, 0x07#8, 0x00#8, 0x06#8, 0x00#8, 0x03#8, 0x01#8, 0x03#8, 0x47#8, 0x36#8, 0x5A#8].map some ∧
      (ran .buildAck ackState).crcResult = 0x365A#16 ∧ (ran .buildAck ackState).outLen = 11#16 := by decide +kernel
/-- V8.4, V8.5, V8.6. -/
theorem test_buildAck_in_place_and_errors :
    (ran .buildAck { ackState with addrD := 0xF8#16 }).errcode = 0x00#8 ∧
      (ran .buildAck { ackState with addrD := 0x100#16 }).errcode = 0x13#8 ∧
      (ran .buildAck { ackState with addrD := 0x7F6#16 }).errcode = 0x11#8 := by decide +kernel

/-- After V3.6, with PING_ECHO's operands. -/
def echoState (a d : Half) : State := { ran .decodeHdr (pingAt 18#16) with addrA := a, addrD := d }

/-- V9.1. -/
theorem test_pingEcho :
    shown (ran .pingEcho (echoState 8#16 0x400#16)).dmem 0x400 18 = pingFrame.map some ∧
      (ran .pingEcho (echoState 8#16 0x400#16)).outLen = 18#16 := by decide +kernel
/-- V9.4, V9.6, V9.7, V9.8. -/
theorem test_pingEcho_errors :
    (ran .pingEcho { echoState 0x7FF#16 0#16 with hdrLen := 0#16 }).errcode = 0x15#8 ∧
      (ran .pingEcho (echoState 8#16 4#16)).errcode = 0x13#8 ∧
      (ran .pingEcho (echoState 0x7FC#16 0x400#16)).errcode = 0x11#8 ∧
      (ran .pingEcho { echoState 8#16 0x400#16 with hdrLen := 0xFFFF#16 }).errcode = 0x11#8 := by decide +kernel

/-! ### The host window and reset: V10.2, V11, V12 -/

theorem test_cmd_write_is_issued_at_once : statusWord (wr32 0x008#13 0x10#32 (ran .decodeHdr (pingAt 8#16))) = 0x03#32 := by
  decide +kernel
theorem test_key_and_unassigned_after_reset :
    rd32 0x060#13 State.reset = 0x47726F77#32 ∧ rd32 0x058#13 State.reset = 0#32 ∧ rd32 0x020#13 State.reset = 0xFFFF#32 ∧
      rd32 0x000#13 State.reset = 0x47504501#32 := by decide +kernel
/-- V6.10. -/
theorem test_recSize_reads : rd32 0x04C#13 (parseState 0#16) = 6#32 ∧
    rd32 0x04C#13 { parseState 0#16 with ndesc := 1#7, desc := (parseState 0#16).desc.set 0 0x2FFFF#18 } = 0x10003#32 := by
  decide +kernel
/-- V12.1, V12.2, V12.4. -/
theorem test_model_faults :
    (wr32 0x014#13 5#32 (waiting 0#32)).faultHostHazard = true ∧
      (hostAccess { offset := 0x010#13, width := 16, value := some 0#32 } State.reset).faultBusMisuse = true ∧
      (wr32 0x012#13 0#32 State.reset).faultBusMisuse = true ∧ (wr32 0x004#13 0xFFFFFFFF#32 (waiting 0#32)).faultHostHazard = false := by
  decide +kernel
/-- R93: the encoding of `run CRC.c` where the third read of STATUS shows DONE = 1; P1: a branch taken past a `halt`. -/
theorem test_program_encoding :
    encodeProgram [.run (.crc true)] 9 [0x03#32, 0x03#32, 0x05#32] =
        { offset := 0x008#13, width := 32, value := some 0x101#32 } ::
          List.replicate 3 { offset := 0x004#13, width := 32, value := none } ∧
      encodeProgram [.brs .status 3 9, .halt, .label 9, .rd .kind] 9 [0x0D#32, 0#32] =
        [{ offset := 0x004#13, width := 32, value := none }, { offset := 0x02C#13, width := 32, value := none }] ∧
      encodeProgram [.brs .status 3 9, .halt, .label 9, .rd .kind] 9 [0x05#32, 0#32] =
        [{ offset := 0x004#13, width := 32, value := none }] ∧
      encodeProgram [.wbs 0x7FE#12 [1#8, 2#8]] 9 [] =
        [{ offset := 0x17FE#13, width := 8, value := some 1#32 }, { offset := 0x17FF#13, width := 8, value := some 2#32 }] ∧
      assemble [.brs .status 3 9, .halt, .label 9, .rd .kind] =
        [rdOp .status, .branchIf 3 true 3, .halt, rdOp .kind] := by decide

/-! ### Witnesses: the hypotheses of the statements are met -/

theorem witness_DecodeAndEncodeAgree : (Instr.crcVerify true).wellFormed = true ∧ Instr.pingEcho.wellFormed = true := by decide

/-- One word for each of the three reasons. -/
theorem witness_IllegalWordEndsWithBadOpcode :
    (waiting 0x200#32).initDone = true ∧ (waiting 0x200#32).pending = some 0x200#32 ∧ (waiting 0x200#32).tainted = false ∧
      (waiting 0x200#32).turns = [] ∧
      (0x200#32).extractLsb' 9 23 ≠ 0#23 ∧ (0x04#32).extractLsb' 0 8 ∉ opcodes ∧
      ((0x110#32).getLsbD 8 = true ∧ (0x110#32).extractLsb' 0 8 ∉ [0x01#8, 0x02#8, 0x03#8]) := by decide +kernel

theorem witness_RegisterMapIsOneToOne : regAt 0x7FC = some (.tbl 255) := by decide

/-- With no turn laid down, and with the Engine's turn at the head. -/
theorem witness_StepRunsTheDecodedCommand :
    (waiting 0x103#32).initDone = true ∧ (waiting 0x103#32).pending = some 0x103#32 ∧ (waiting 0x103#32).tainted = false ∧
      decode 0x103#32 = .command (.crcVerify true) ∧ (waiting 0x103#32).turns = [] ∧
      ({ waiting 0x103#32 with turns := [.engine, .host] }).turns = .engine :: [.host] := by decide +kernel

theorem witness_CmdWriteIssuesTheCommand : State.reset.busy = false ∧ (waiting 0#32).busy = true := by decide +kernel

theorem witness_TableIsBuiltOnceBeforeAnyCommand :
    (State.reset.initDone = false ∧ State.reset.turns = []) ∧
      ({ State.reset with turns := [.engine] }).turns = .engine :: [] ∧
      (waiting 0#32).initDone = true ∧ (waiting 0#32).turns.head? ≠ some .reset ∧
      step (waiting 0#32) = .next (after (waiting 0#32) (step (waiting 0#32))) :=
  ⟨by decide +kernel, rfl, by decide +kernel, by decide +kernel, rfl⟩

theorem witness_ErrorChangesOnlyErrcodeAndStatus :
    runWord 0x10#32 (pingAt 8#16) = .next (ran .decodeHdr (pingAt 8#16)) ∧ (ran .decodeHdr (pingAt 8#16)).err = true :=
  ⟨rfl, by decide +kernel⟩

/-- For the four statements whose one hypothesis is that a command answers a next state. -/
theorem witness_command_answers_next : exec .nop State.reset = .next (ran .nop State.reset) := rfl

theorem witness_PendingCommandSoonCompletes :
    (waiting 0#32).busy = true ∧ (waiting 0#32).turns = [] ∧ (waiting 0#32).initDone = true ∧
      (issue 0#32 State.reset).busy = true ∧ (issue 0#32 State.reset).turns = [] ∧
      (issue 0#32 State.reset).initDone = false := by decide +kernel

/-- The Host at each kind of operation. -/
def hostAt (pc : Nat) : State :=
  { ready 0 [] with hostProg := [wrOp .addrA 1#32, .branchIf 2 true 0, .jump 0, .halt], hostPc := pc }

theorem witness_HostExecutesItsProgram :
    ((hostAt 0).initDone = true ∧ (hostAt 0).busy = false ∧ (hostAt 0).turns = []) ∧
      (hostAt 0).hostProg[(hostAt 0).hostPc]? = some (.bus { offset := 0x010#13, width := 32, value := some 1#32 }) ∧
      (hostAt 1).hostProg[(hostAt 1).hostPc]? = some (.branchIf 2 true 0) ∧
      (hostAt 2).hostProg[(hostAt 2).hostPc]? = some (.jump 0) ∧
      (hostAt 3).hostProg[(hostAt 3).hostPc]? = some .halt ∧ (hostAt 4).hostProg[(hostAt 4).hostPc]? = none := by
  decide +kernel

/-- The Host at `run CRC.c`. -/
def hostAtRun : State := { ready 0 [] with hostProg := expandStmt (fun _ => 0) 0 (.run (.crc true)) }

theorem witness_RunPassesItsWait :
    (hostAtRun.initDone = true ∧ hostAtRun.busy = false ∧ hostAtRun.tainted = false ∧ hostAtRun.turns = []) ∧
      ∀ k op, (expandStmt (fun _ => 0) hostAtRun.hostPc (.run (.crc true)))[k]? = some op →
        hostAtRun.hostProg[hostAtRun.hostPc + k]? = some op :=
  ⟨by decide +kernel, fun k op h => by
    rw [show hostAtRun.hostPc + k = k from Nat.zero_add k]; exact h⟩

/-- A range that ends exactly at DMEM_SIZE and one a byte past it; the CRC commands with their two bytes more. -/
theorem witness_crc_ranges :
    ((ops 0x7FE#16 2#16 0#16 State.reset).addrA.toNat + (ops 0x7FE#16 2#16 0#16 State.reset).lenA.toNat ≤ 2048) ∧
      (2048 < (ops 0x7FF#16 2#16 0#16 State.reset).addrA.toNat + (ops 0x7FF#16 2#16 0#16 State.reset).lenA.toNat) ∧
      (ops 0x7FE#16 0#16 0#16 State.reset).addrA.toNat + ((ops 0x7FE#16 0#16 0#16 State.reset).lenA.toNat + 2) ≤ 2048 ∧
      2048 < (ops 0x7FE#16 1#16 0#16 State.reset).addrA.toNat + ((ops 0x7FE#16 1#16 0#16 State.reset).lenA.toNat + 2) := by
  decide +kernel

/-- The same two bytes at the end of DMEM's room and at address 0. -/
theorem witness_ChecksumDependsOnBytesAndSeedAlone :
    (let s := ops 0x7FC#16 2#16 0#16 (ready 0x7FC [0x31#8, 0x32#8])
     let s' := ops 0#16 2#16 0#16 (ready 0 [0x31#8, 0x32#8])
     let bs : List Byte := [0x31#8, 0x32#8]
     (s.addrA.toNat + (bs.length + 2) ≤ 2048 ∧ s'.addrA.toNat + (bs.length + 2) ≤ 2048) ∧
      (s.lenA.toNat = bs.length ∧ s'.lenA.toNat = bs.length) ∧
      holdsBytes s.dmem s.addrA.toNat bs ∧ holdsBytes s'.dmem s'.addrA.toNat bs ∧
      s.tbl = s'.tbl ∧ (true = true → s.crcResult = s'.crcResult)) :=
  ⟨by decide +kernel, by decide +kernel, by unfold holdsBytes; decide +kernel, by unfold holdsBytes; decide +kernel, rfl,
    fun _ => rfl⟩

theorem witness_ChecksumContinuesOverTwoRanges :
    (0x10#16).toNat + (4#16).toNat + (5#16).toNat ≤ 2048 ∧
      rangeWritten digits.dmem (0x10#16).toNat ((4#16).toNat + (5#16).toNat) :=
  ⟨by decide, by unfold rangeWritten; decide +kernel⟩

theorem witness_VerifyAcceptsWhatAppendWrote :
    (digits.addrA.toNat + (digits.lenA.toNat + 2) ≤ 2048 ∧ rangeWritten digits.dmem digits.addrA.toNat digits.lenA.toNat) ∧
      digits.addrA.toNat + digits.lenA.toNat ≤ 0x1A ∧ 0x1A < digits.addrA.toNat + digits.lenA.toNat + 2 ∧
      (ran (.crcAppend false) digits).dmem.lookup 0x1A ≠ some 0x36#8 :=
  ⟨⟨by decide +kernel, by unfold rangeWritten; decide +kernel⟩, by decide +kernel, by decide +kernel, by decide +kernel⟩

/-- Each clause at a boundary: 9 and 300 bytes, the last range that fits, 8 bytes, 301 bytes, a range a byte too far. -/
theorem witness_DecodeHdrReadsTheHeader :
    [(0#16, 9#16), (0#16, 300#16), (0x7F7#16, 9#16)].all
        (fun (a, n) => 9 ≤ n.toNat && n.toNat ≤ 300 && a.toNat + n.toNat ≤ 2048) = true ∧
      (8#16).toNat < 9 ∧ 300 < (301#16).toNat ∧
      (9 ≤ (9#16).toNat ∧ (9#16).toNat ≤ 300 ∧ 2048 < (0x7F8#16).toNat + (9#16).toNat) := by decide

theorem witness_MissingBytesCompleteTheFrame :
    (rangeWritten (pingAt 12#16).dmem (pingAt 12#16).addrA.toNat 8 ∧
      exec .decodeHdr (pingAt 12#16) = .next (ran .decodeHdr (pingAt 12#16)) ∧
      (ran .decodeHdr (pingAt 12#16)).err = false) ∧
      (pingAt 12#16).lenA.toNat ≤ (18#16).toNat ∧ (18#16).toNat ≤ 300 ∧
      (pingAt 12#16).addrA.toNat + (18#16).toNat ≤ 2048 :=
  ⟨⟨by unfold rangeWritten; decide +kernel, rfl, by decide +kernel⟩, by decide +kernel, by decide, by decide +kernel⟩

theorem witness_ClassifyByTheTable :
    ((header 5#16 0x04#8 257#16).hdrProto.toNat = 5 ∧ (header 6#16 0x04#8 257#16).hdrProto.toNat = 6) ∧
      (header 7#16 0x04#8 257#16).hdrProto.toNat ≠ 5 ∧ (header 7#16 0x04#8 257#16).hdrProto.toNat ≠ 6 := by decide +kernel

theorem witness_UnknownIsNoError :
    (header 6#16 0x04#8 256#16).hdrProto = 6#16 ∧
      kindOf (header 6#16 0x04#8 256#16).hdrMsgid (header 6#16 0x04#8 256#16).hdrLen.toNat = .unknown := by decide +kernel

/-- Each clause at a boundary: keys of 1 and 16 bytes, adjacent ranges, in place; keys of 0 and 17 bytes; each range a byte
too far; an overlap of one byte. -/
theorem witness_DeobfXorsWithTheCycledKey :
    ((1 ≤ (1#5).toNat ∧ (16#5).toNat ≤ 16) ∧ 0x7F8 + 4 ≤ 2048 ∧ 0x7FC + 4 ≤ 2048 ∧ ¬meets 0x7F8 4 0x7FC 4) ∧
      ((0#5).toNat = 0 ∧ 16 < (17#5).toNat) ∧ (2048 < (0x7FF#16).toNat + (2#16).toNat) ∧
      (0x300 + 4 ≤ 2048 ∧ 0x303 + 4 ≤ 2048 ∧ 0x303 ≠ 0x300 ∧ meets 0x300 4 0x303 4) := by
  unfold meets; decide

theorem witness_DeobfTwiceGivesTheBytesBack :
    ((1 ≤ deobfState.keyLen.toNat ∧ deobfState.keyLen.toNat ≤ 16) ∧
      (deobfState.addrA.toNat + deobfState.lenA.toNat ≤ 2048 ∧ deobfState.addrD.toNat + deobfState.lenA.toNat ≤ 2048) ∧
      (0x7F7#16).toNat + deobfState.lenA.toNat ≤ 2048) ∧
      ¬meets deobfState.addrA.toNat deobfState.lenA.toNat deobfState.addrD.toNat deobfState.lenA.toNat ∧
      ¬meets deobfState.addrD.toNat deobfState.lenA.toNat (0x7F7#16).toNat deobfState.lenA.toNat ∧
      rangeWritten deobfState.dmem deobfState.addrA.toNat deobfState.lenA.toNat :=
  ⟨by decide +kernel, by unfold meets; decide +kernel, by unfold meets; decide +kernel, by unfold rangeWritten; decide +kernel⟩

theorem witness_DeobfInPiecesAtKeyMultiples :
    ((1 ≤ deobfState.keyLen.toNat ∧ deobfState.keyLen.toNat ≤ 16) ∧ (7#16).toNat = 1 * deobfState.keyLen.toNat ∧
      (0x300#16).toNat + (7#16).toNat + (2#16).toNat ≤ 2048) ∧
      rangeWritten deobfState.dmem (0x300#16).toNat ((7#16).toNat + (2#16).toNat) :=
  ⟨by decide +kernel, by unfold rangeWritten; decide +kernel⟩

theorem witness_RecSizeIsTheFurthestEnd : 2 < min (parseState 77#16).ndesc.toNat 64 := by decide +kernel

/-- The layout of P3: two fields, the padding, one field. -/
def paddedState : State :=
  { ready 0 [] with
    ndesc := 3#7
    desc := ((Vector.replicate 64 0#18).set 0 0x10000#18).set 1 0x20002#18 |>.set 2 0x10012#18 }

theorem witness_PaddedLayoutIsSteppedOver :
    (([1] : List Nat) ≠ [] ∧ (∀ wc ∈ [1, 2] ++ [1], wc = 1 ∨ wc = 2) ∧ [1, 2].length + [1].length ≤ 64 ∧
      paddedState.ndesc.toNat = [1, 2].length + [1].length) ∧
      ∀ i (f : Nat × Nat), (paddedLayout [1, 2] [1])[i]? = some f →
        (paddedState.desc.toList.getD i 0#18).setWidth 32 = descWord f := by
  refine ⟨by decide +kernel, fun i f h => ?_⟩
  match i, h with
  | 0, h => cases Option.some.inj h; decide +kernel
  | 1, h => cases Option.some.inj h; decide +kernel
  | 2, h => cases Option.some.inj h; decide +kernel

/-- The W of a state's descriptor, and whether PARSE takes the descriptors in use. -/
def widthOf (s : State) (i : Nat) : Nat := ((s.desc.toList.getD i 0#18).extractLsb' 16 2).toNat
def parseLegal (s : State) : Prop := s.ndesc.toNat ≤ 64 ∧ ∀ i < s.ndesc.toNat, widthOf s i = 1 ∨ widthOf s i = 2

/-- Each clause at a boundary: exactly 71 + REC_SIZE bytes, one less, NDESC = 65, W = 3, a range a byte too far. -/
theorem witness_ParseUnpacksTheFields :
    (parseLegal (parseState 77#16) ∧ (0x200#16).toNat + (77#16).toNat ≤ 2048 ∧ 71 + (parseState 77#16).recSize ≤ 77) ∧
      76 < 71 + (parseState 76#16).recSize ∧ ¬parseLegal { parseState 77#16 with ndesc := 65#7 } ∧
      ¬parseLegal { parseState 77#16 with desc := (parseState 77#16).desc.set 2 0x30002#18 } ∧
      2048 < (0x7B4#16).toNat + (77#16).toNat := by
  unfold parseLegal; decide +kernel

/-- Two bodies that agree on the record, the second with other bytes around it. -/
def parseState' : State := { parseState 77#16 with dmem := ((parseState 77#16).dmem.store 0x246 9#8).store 0x24D 9#8 }

theorem witness_ParseReadsOnlyTheRecord :
    (parseState'.addrA = (parseState 77#16).addrA ∧ parseState'.lenA = (parseState 77#16).lenA ∧
      parseState'.ndesc = (parseState 77#16).ndesc ∧ parseState'.desc = (parseState 77#16).desc ∧
      parseState'.recs = (parseState 77#16).recs) ∧
      (∀ x, (parseState 77#16).addrA.toNat + 71 ≤ x →
        x < (parseState 77#16).addrA.toNat + 71 + (parseState 77#16).recSize →
        (parseState 77#16).dmem.written x = true ∧ parseState'.dmem.lookup x = (parseState 77#16).dmem.lookup x) ∧
      exec .parse (parseState 77#16) = .next (ran .parse (parseState 77#16)) ∧
      exec .parse parseState' = .next (ran .parse parseState') ∧ (ran .parse (parseState 77#16)).err = false := by
  refine ⟨⟨rfl, rfl, rfl, rfl, rfl⟩, ?_, rfl, rfl, by decide +kernel⟩
  have h : ∀ k < 6, (parseState 77#16).dmem.written (0x247 + k) = true ∧
      parseState'.dmem.lookup (0x247 + k) = (parseState 77#16).dmem.lookup (0x247 + k) := by decide +kernel
  have hr : (parseState 77#16).recSize = 6 := by decide +kernel
  intro x h1 h2
  rw [hr] at h2
  have e : (parseState 77#16).addrA.toNat = 0x200 := rfl
  rw [e] at h1 h2
  have hk := h (x - 0x247) (by omega)
  rwa [show 0x247 + (x - 0x247) = x by omega] at hk

/-- The builders' clauses at their boundaries: the last destination that fits, one byte too far, in place, an overlap. -/
theorem witness_builder_ranges :
    ((0x7F8#16).toNat + 8 ≤ 2048 ∧ 2048 < (0x7F9#16).toNat + 8) ∧
      (0x100 + 1 ≤ 2048 ∧ 0x7F5 + (1 + 10) ≤ 2048 ∧ ¬meets 0x100 1 0x7F5 (1 + 10)) ∧
      (2048 < 0x7FF + 2 ∧ 2048 < 0x7F6 + (1 + 10)) ∧ 0xF8 + 8 = 0x100 ∧
      (0x100 + 8 ≠ 0x100 ∧ meets 0x100 1 0x100 (1 + 10)) := by
  unfold meets; decide

/-- PING_ECHO: HDR_LEN = 2 (no payload), the last destination that fits, HDR_LEN = 1, a byte too far, an overlap. -/
theorem witness_PingEchoRepeatsThePayload :
    (2 ≤ (2#16).toNat ∧ 0x10 + (2 - 2) ≤ 2048 ∧ 0x7F8 + (2 + 6) ≤ 2048 ∧ ¬meets 0x10 (2 - 2) 0x7F8 (2 + 6)) ∧
      (1#16).toNat < 2 ∧ (2 ≤ 12 ∧ 2048 < 0x7FC + (12 - 2)) ∧
      (2 ≤ 12 ∧ 8 + (12 - 2) ≤ 2048 ∧ 4 + (12 + 6) ≤ 2048 ∧ 4 + 8 ≠ 8 ∧ meets 8 (12 - 2) 4 (12 + 6)) := by
  unfold meets; decide

/-- For the two statements about an acknowledgement just built. -/
theorem witness_Acknowledgement :
    exec .buildAck ackState = .next (ran .buildAck ackState) ∧ (ran .buildAck ackState).err = false ∧
      1 ≤ ackState.lenA.toNat ∧ ackState.lenA.toNat + 8 ≤ 300 :=
  ⟨rfl, by decide +kernel, by decide +kernel, by decide +kernel⟩

theorem witness_ReadOnlyBitsIgnoreWrites :
    regAccess (.recEntry 63) = .readOnly ∧ regAccess (.desc 63) = .readWrite ∧ State.reset.busy = false := by decide

theorem witness_RegistersHoldWhatIsWritten :
    regAccess .keyLen = .readWrite ∧ State.reset.busy = false ∧
      (RegName.ndesc ≠ .keyLen ∧ RegName.ndesc ≠ .status ∧ RegName.ndesc ≠ .recSize) ∧ RegName.keyLen ≠ .hdrLen ∧
      RegName.keyLen ≠ .ndesc ∧ ∀ i, RegName.keyLen ≠ .desc i := by decide

theorem witness_UnassignedOffsetsReadZero :
    ((0x800#13).toNat < 0x1000 ∧ (0x800#13).toNat % 4 = 0 ∧ ∀ r : RegName, regOffset r ≠ (0x800#13).toNat) ∧
      0x1800 ≤ (0x1800#13).toNat := by
  refine ⟨⟨by decide, by decide, fun r => ?_⟩, by decide⟩
  show regOffset r ≠ 0x800
  cases r <;> simp only [regOffset] <;> omega

/-- Each clause: a 16-bit register access, a register access 2 bytes off, a 32-bit access at the first DMEM offset. -/
theorem witness_MisuseIsRecordedAndChangesNothingElse :
    ((0x010#13).toNat < 0x1000 ∧ (16 : Nat) ≠ 32) ∧ ((0xFFE#13).toNat < 0x1000 ∧ (0xFFE#13).toNat % 4 ≠ 0) ∧
      (0x1000 ≤ (0x1000#13).toNat ∧ (32 : Nat) ≠ 8) := by decide

theorem witness_HostReadsHaveNoSideEffect :
    ((waiting 0#32).busy = true ∧ RegName.recBase ≠ .status ∧ 2047 < 2048) ∧
      (State.reset.busy = false ∧ State.reset.initDone = false) ∧
    BusAccess.allowed { offset := 0xFFC#13, width := 32, value := none } = true ∧
      BusAccess.allowed { offset := 0x1FFF#13, width := 8, value := none } = true := by decide +kernel

theorem witness_DmemBytesReadBack :
    (2047 < 2048 ∧ State.reset.busy = false) ∧ State.reset.dmem.written 2047 = false := by decide

theorem witness_KeyWordsAreBigEndian : (15 : Nat) < 16 ∧ (15 : Nat) = 4 * (3 : Fin 4).val + 3 := by decide

/-- A hazardous write of each kind: an RW register, CMD, the first and the last DMEM byte. -/
theorem witness_WriteWhileBusyIsAHazard :
    (waiting 0#32).busy = true ∧
      (regAccess .lenA ≠ .readOnly ∧ (0x014#13).toNat = regOffset .lenA) ∧
      (regAccess .cmd ≠ .readOnly ∧ (0x008#13).toNat = regOffset .cmd) ∧
      (0x1000 ≤ (0x1000#13).toNat ∧ (0x17FF#13).toNat < 0x1800) ∧
      (hazard (waiting 0#32)).initDone = true ∧ (hazard (waiting 0#32)).pending = some 0#32 ∧
      (hazard (waiting 0#32)).tainted = true ∧ (hazard (waiting 0#32)).turns = [] := by decide +kernel

/-- Two early reads and the one that ends the loop, with just enough operations. -/
theorem witness_PseudoInstructionsExpand :
    (∀ u ∈ [0x03#32, 0x01#32], u.getLsbD 2 = false) ∧ (0x05#32).getLsbD 2 = true ∧ 2 * [0x03#32, 0x01#32].length + 3 ≤ 7 ∧
      (0xFFE#12).toNat + [1#8, 2#8].length ≤ 4096 :=
  ⟨by simp, by decide, by decide, by decide⟩

theorem witness_ResultRegistersReadOut : digits.busy = false ∧ digits.initDone = true := by decide +kernel

theorem witness_FaultsAreNeverCleared :
    (State.reset.turns.head? ≠ some .reset ∧ step State.reset = .next (after State.reset (step State.reset))) ∧
      (recordFault .busMisuse State.reset).faultBusMisuse = true ∧
      (recordFault .hostHazard State.reset).faultHostHazard = true :=
  ⟨⟨by decide, rfl⟩, by decide, by decide⟩

theorem witness_ResetDiscardsThePendingCommand :
    ({ waiting 0x41#32 with turns := [.reset, .host] }).turns = .reset :: [.host] := rfl

theorem witness_EveryStepKeepsTheInvariant :
    StepInv digits ∧ step digits = .next (after digits (step digits)) := by
  refine ⟨⟨by decide +kernel, fun _ => rfl, fun h => ?_, by decide +kernel, fun h => ?_, fun h => ?_, fun _ => by decide +kernel,
    fun _ => by decide +kernel, fun _ => by decide +kernel, fun _ => by decide +kernel⟩, rfl⟩
  · exact absurd h (by decide +kernel)
  · exact absurd h (by decide +kernel)
  · exact absurd h (by decide +kernel)

theorem witness_InstancesAreIsolated :
    0 < Config.nInst ∧ step State.reset = .next (buildTable State.reset) ∧
    (Platform.stepAt { cells := [State.reset, State.reset] } 0 =
        .next { cells := [buildTable State.reset, State.reset] } ∧ (1 : Nat) ≠ 0) ∧
      ∀ off, Platform.route { cells := [State.reset] } (Config.gpeBase 0) ≠ some (1, off) := by
  refine ⟨Nat.succ_pos _, rfl, ⟨rfl, by decide⟩, fun off h => ?_⟩
  simp [Platform.route, List.range_succ, Config.windowSize] at h

end Sys2Proof.Tests
end

section
/-! SUPPORT. The register map (10_state.md R23): each register has an offset of its own in the register part of the window,
and a 32-bit Host access at that offset is an access of that register. -/

namespace Sys2Proof.Machine

/-! ### Offsets -/

theorem regOffset_lt_dmemWindow (r : RegName) : regOffset r < Config.dmemWindow := by
  cases r <;> simp only [regOffset, Config.dmemWindow] <;> omega

theorem regOffset_mod_four (r : RegName) : regOffset r % 4 = 0 := by
  cases r <;> simp only [regOffset] <;> omega

/-- The register found at a register's offset is that register: the three arrays by their index, the others by the search of
the list of single registers. -/
theorem regAt_regOffset (r : RegName) : regAt (regOffset r) = some r := by
  cases r with
  | keyW j => revert j; decide
  | desc i =>
    show regAt (0x100 + 4 * i.val) = some (.desc i)
    unfold regAt
    rw [if_neg (by omega), dif_pos (by omega)]
    simp
  | recEntry i =>
    show regAt (0x200 + 4 * i.val) = some (.recEntry i)
    unfold regAt
    rw [if_neg (by omega), dif_neg (by omega), dif_pos (by omega)]
    simp
  | tbl i =>
    show regAt (0x400 + 4 * i.val) = some (.tbl i)
    unfold regAt
    rw [if_neg (by omega), dif_neg (by omega), dif_neg (by omega), dif_pos (by omega)]
    simp
  | _ => rfl

/-- A register is found at its own offset only. -/
theorem regOffset_of_regAt {off : Nat} {r : RegName} (h : regAt off = some r) : regOffset r = off := by
  unfold regAt at h
  split_ifs at h with hAligned hDesc hRec hTbl
  · obtain rfl := Option.some.inj h
    simp only [regOffset]
    omega
  · obtain rfl := Option.some.inj h
    simp only [regOffset]
    omega
  · obtain rfl := Option.some.inj h
    simp only [regOffset]
    omega
  · simpa using List.find?_some h

/-- Settles O5: the offsets are those of the map's rows, and `regAt` is inverse to `regOffset` both ways. -/
theorem registerMapIsOneToOne : Obligations.RegisterMapIsOneToOne :=
  ⟨rfl, rfl, fun _ => rfl, fun _ => rfl, fun _ => rfl,
    fun r => ⟨regOffset_lt_dmemWindow r, regOffset_mod_four r, regAt_regOffset r⟩,
    fun _ _ => regOffset_of_regAt⟩

/-! ### Accesses at a register's offset -/

/-- The 32-bit write of `v` at the offset of register `r` (20_memory.md R62). -/
abbrev writeAccess (r : RegName) (v : Word) : BusAccess :=
  { offset := BitVec.ofNat 13 (regOffset r), width := 32, value := some v }

/-- The 32-bit read at the offset of register `r` (20_memory.md R62). -/
abbrev readAccess (r : RegName) : BusAccess :=
  { offset := BitVec.ofNat 13 (regOffset r), width := 32, value := none }

/-- No register's offset is cut by the 13 bits of the window. -/
theorem toNat_ofNat_regOffset (r : RegName) : (BitVec.ofNat 13 (regOffset r)).toNat = regOffset r := by
  have := regOffset_lt_dmemWindow r
  simp only [Config.dmemWindow] at this
  simp only [BitVec.toNat_ofNat]
  omega

/-- A 32-bit access at a register's offset is allowed and goes to the register part of the window. -/
theorem hostAccess_register (r : RegName) (value : Option Word) (s : State) :
    hostAccess { offset := BitVec.ofNat 13 (regOffset r), width := 32, value := value } s =
      registerAccess { offset := BitVec.ofNat 13 (regOffset r), width := 32, value := value } s := by
  simp only [hostAccess, BusAccess.allowed, toNat_ofNat_regOffset, regOffset_lt_dmemWindow, regOffset_mod_four]
  rfl

theorem hostAccess_writeAccess (r : RegName) (v : Word) (s : State) :
    hostAccess (writeAccess r v) s = hostWriteReg r v s := by
  simp only [hostAccess_register, registerAccess, toNat_ofNat_regOffset, regAt_regOffset]

theorem hostAccess_readAccess (r : RegName) (s : State) : hostAccess (readAccess r) s = hostReadReg r s := by
  simp only [hostAccess_register, registerAccess, toNat_ofNat_regOffset, regAt_regOffset]

theorem hostAccess_writeAccess_readOnly {r : RegName} (hr : regAccess r = .readOnly) (v : Word) (s : State) :
    hostAccess (writeAccess r v) s = s := by
  simp [hostAccess_writeAccess, hostWriteReg, hr]

/-- While idle, a write to an RW register is `writeReg`. -/
theorem hostAccess_writeAccess_idle {r : RegName} {s : State} (hr : regAccess r = .readWrite) (hs : s.busy = false)
    (v : Word) : hostAccess (writeAccess r v) s = writeReg r v s := by
  simp [hostAccess_writeAccess, hostWriteReg, hr, hs]

/-- While idle, a read hands the Host the register's value. -/
theorem hostAccess_readAccess_idle (r : RegName) {s : State} (hs : s.busy = false) :
    (hostAccess (readAccess r) s).readData = readReg s r := by
  simp [hostAccess_readAccess, hostReadReg, hs]

end Sys2Proof.Machine
end

section
/-! SUPPORT. The bits of a register's field, what a write to a register stores in them, and what it leaves alone (10_state.md
R23, R52; 20_memory.md R71). -/

namespace Sys2Proof.Machine

/-! ### Fields -/

/-- Clearing the bits above a field is narrowing the word to the field and zero-extending it. -/
theorem getLsbD_inField (r : RegName) (v : Word) (i : Nat) :
    (inField r v).getLsbD i = (decide (i < fieldBits r) && v.getLsbD i) := by
  by_cases hi : i < 32
  · simp only [inField, BitVec.getLsbD_and, BitVec.getLsbD_ofNat, Nat.testBit_two_pow_sub_one, hi, decide_true,
      Bool.true_and, Bool.and_comm]
  · simp [BitVec.getLsbD_of_ge _ i (Nat.le_of_not_lt hi)]

/-- Clearing the bits above a field is narrowing the word to the field and zero-extending it. -/
theorem inField_eq_setWidth (r : RegName) (v : Word) : inField r v = (v.setWidth (fieldBits r)).setWidth 32 := by
  apply BitVec.eq_of_getLsbD_eq
  intro i hi
  simp only [getLsbD_inField, BitVec.getLsbD_setWidth, hi, decide_true, Bool.true_and]

/-- A field no wider than the register's own does not see the bits `inField` clears. -/
theorem setWidth_inField {n : Nat} {r : RegName} (hn : n ≤ fieldBits r) (v : Word) :
    (inField r v).setWidth n = v.setWidth n := by
  apply BitVec.eq_of_getLsbD_eq
  intro i hi
  simp [getLsbD_inField, hi, Nat.lt_of_lt_of_le hi hn]

/-- A write stores no bit above the register's field (10_state.md R52). -/
theorem writeReg_inField {r : RegName} (hr : regAccess r = .readWrite) (v : Word) (s : State) :
    writeReg r (inField r v) s = writeReg r v s := by
  have hField := setWidth_inField (Nat.le_refl (fieldBits r)) v
  cases r with
  | config => simp only [writeReg, getLsbD_inField, fieldBits, Nat.lt_one_iff, decide_true, Bool.true_and]
  | keyW j => simp [writeReg, inField_eq_setWidth, fieldBits]
  | addrA | lenA | addrD | hdrTid | hdrProto | hdrLen | hdrUnit | hdrMsgid | keyLen | ndesc | desc _ =>
    simp only [fieldBits] at hField
    simp only [writeReg, hField]
  | _ => contradiction

/-! ### What a register write stores and leaves alone -/

/-- A write to an RW register issues nothing and touches no stored STATUS bit (20_memory.md R71). -/
theorem writeReg_readWrite_frame {r : RegName} (hr : regAccess r = .readWrite) (v : Word) (s : State) :
    (writeReg r v s).pending = s.pending ∧ (writeReg r v s).done = s.done ∧ (writeReg r v s).err = s.err ∧
      (writeReg r v s).errcode = s.errcode := by
  cases r with
  | cmd => contradiction
  | _ => exact ⟨rfl, rfl, rfl, rfl⟩

theorem writeReg_busy {r : RegName} (hr : regAccess r = .readWrite) (v : Word) (s : State) :
    (writeReg r v s).busy = s.busy := by
  obtain ⟨hPending, -⟩ := writeReg_readWrite_frame hr v s
  simp only [State.busy, hPending]

theorem ofBool_getLsbD_zero (v : Word) : BitVec.ofBool (v.getLsbD 0) = v.setWidth 1 := by
  apply BitVec.eq_of_getLsbD_eq
  intro i hi
  obtain rfl : i = 0 := by omega
  simp

/-- An RW register reads back the bits of its field (10_state.md R23). -/
theorem readReg_writeReg_same {r : RegName} (hr : regAccess r = .readWrite) (v : Word) (s : State) :
    readReg (writeReg r v s) r = inField r v := by
  rw [inField_eq_setWidth]
  cases r with
  | config => exact congrArg (BitVec.setWidth 32) (ofBool_getLsbD_zero v)
  | keyW j => simp [readReg, writeReg, fieldBits]
  | desc i => simp [readReg, writeReg, fieldBits]
  | addrA | lenA | addrD | hdrTid | hdrProto | hdrLen | hdrUnit | hdrMsgid | keyLen | ndesc => rfl
  | _ => contradiction

/-- A write to an RW register leaves every other register that is no view of it: two words of the key and two descriptors are
different entries, and any other two registers are different fields (20_memory.md R71). -/
theorem readReg_writeReg_of_ne {r r' : RegName} (hr : regAccess r = .readWrite) (hne : r' ≠ r) (hStatus : r' ≠ .status)
    (hRecSize : r' ≠ .recSize) (v : Word) (s : State) : readReg (writeReg r v s) r' = readReg s r' := by
  cases r with
  | keyW j =>
    cases r' with
    | keyW j' =>
      have hj : j.val ≠ j'.val := fun h => hne (congrArg RegName.keyW (Fin.ext h.symm))
      simp [readReg, writeReg, Vector.getElem_set_ne _ _ hj]
    | status | recSize => contradiction
    | _ => rfl
  | desc i =>
    cases r' with
    | desc i' =>
      have hi : i.val ≠ i'.val := fun h => hne (congrArg RegName.desc (Fin.ext h.symm))
      simp [readReg, writeReg, Vector.getElem_set_ne _ _ hi]
    | status | recSize => contradiction
    | _ => rfl
  | addrA | lenA | addrD | config | hdrTid | hdrProto | hdrLen | hdrUnit | hdrMsgid | keyLen | ndesc =>
    cases r' <;> first | contradiction | rfl
  | _ => contradiction

/-- REC_SIZE is computed from NDESC and DESC alone (43_record_parser.md R151). -/
theorem recSize_writeReg {r : RegName} (hNdesc : r ≠ .ndesc) (hDesc : ∀ i, r ≠ .desc i) (v : Word) (s : State) :
    (writeReg r v s).recSize = s.recSize := by
  cases r with
  | ndesc => contradiction
  | desc i => exact absurd rfl (hDesc i)
  | _ => rfl

/-- STATUS.LEN_WF is computed from HDR_LEN alone (41_frame_decoder.md R123), and no other bit of STATUS from an RW
register. -/
theorem statusWord_writeReg {r : RegName} (hr : regAccess r = .readWrite) (hHdrLen : r ≠ .hdrLen) (v : Word) (s : State) :
    statusWord (writeReg r v s) = statusWord s := by
  cases r with
  | cmd | hdrLen => contradiction
  | _ => rfl

/-- The bits of a word of seven flags, from bit 0 up. -/
theorem getLsbD_flags (a b c d e f g : Bool) {k : Nat} (hk : k < 7) :
    (BitVec.ofBool g ++ BitVec.ofBool f ++ BitVec.ofBool e ++ BitVec.ofBool d ++ BitVec.ofBool c ++ BitVec.ofBool b
      ++ BitVec.ofBool a : BitVec 7).getLsbD k = [a, b, c, d, e, f, g].getD k false := by
  revert a b c d e f g
  interval_cases k <;> decide

/-- The bits of STATUS, from bit 0 up (10_state.md R25). -/
theorem getLsbD_statusWord (s : State) (k : Nat) : (statusWord s).getLsbD k =
    [s.initDone, s.busy, s.done, s.err, s.lenWf, s.bodyComplete, s.crcMatch].getD k false := by
  simp only [statusWord, BitVec.getLsbD_setWidth]
  by_cases hk : k < 7
  · simp only [getLsbD_flags _ _ _ _ _ _ _ hk, show k < 32 by omega, decide_true, Bool.true_and]
  · simp [Nat.le_of_not_lt hk]

/-- Two states that differ in HDR_LEN alone differ in bit 4 of STATUS alone. -/
theorem statusWord_hdrLen_bit (s : State) (len : Half) {k : Nat} (hk : k ≠ 4) :
    (statusWord { s with hdrLen := len }).getLsbD k = (statusWord s).getLsbD k := by
  rw [getLsbD_statusWord, getLsbD_statusWord]
  match k with
  | 0 | 1 | 2 | 3 | 5 | 6 | _ + 7 => rfl
  | 4 => contradiction

/-- A write to an RW register changes no bit of STATUS but LEN_WF. -/
theorem statusWord_writeReg_bit {r : RegName} (hr : regAccess r = .readWrite) (v : Word) (s : State) {k : Nat} (hk : k ≠ 4) :
    (statusWord (writeReg r v s)).getLsbD k = (statusWord s).getLsbD k := by
  by_cases hHdrLen : r = .hdrLen
  · subst hHdrLen
    exact statusWord_hdrLen_bit s _ hk
  · rw [statusWord_writeReg hr hHdrLen]

/-! ### The settled statements -/

theorem regAccess_readOnly_iff (r : RegName) : regAccess r = .readOnly ↔
    r ∈ ([.id, .status, .errcode, .crcResult, .outLen, .bodyNeed, .kind, .recSize, .recBase, .memSize] : List RegName) ∨
      (∃ i, r = .recEntry i) ∨ ∃ i, r = .tbl i := by
  cases r <;> simp [regAccess]

theorem regAccess_writeOnly_iff (r : RegName) : regAccess r = .writeOnly ↔ r = .cmd := by
  cases r <;> simp [regAccess]

/-- Settles O44: the access of each register by cases; a write to an RO register is the identity, and one to an RW register
stores only the bits of the field. -/
theorem readOnlyBitsIgnoreWrites : Obligations.ReadOnlyBitsIgnoreWrites := by
  refine ⟨regAccess_readOnly_iff, regAccess_writeOnly_iff, fun s r v => ⟨fun hr => ?_, fun hr hs => ?_⟩⟩
  · exact hostAccess_writeAccess_readOnly hr v s
  · calc hostAccess (writeAccess r v) s
        = writeReg r v s := hostAccess_writeAccess_idle hr hs v
      _ = writeReg r (inField r v) s := (writeReg_inField hr v s).symm
      _ = hostAccess (writeAccess r (inField r v)) s := (hostAccess_writeAccess_idle hr hs _).symm

/-- Settles O45: each write is the update of one field, which the register reads back, and no other register reads
otherwise but those computed from it. -/
theorem registersHoldWhatIsWritten : Obligations.RegistersHoldWhatIsWritten := by
  refine ⟨fun s v hs => ?_, fun s r v hr hs => ?_⟩
  · have write : ∀ r, regAccess r = .readWrite → hostAccess (writeAccess r v) s = writeReg r v s :=
      fun r hr => hostAccess_writeAccess_idle hr hs v
    exact ⟨⟨write .addrA rfl, write .lenA rfl, write .addrD rfl, write .config rfl⟩,
      ⟨write .hdrTid rfl, write .hdrProto rfl, write .hdrLen rfl, write .hdrUnit rfl, write .hdrMsgid rfl⟩,
      ⟨write .keyLen rfl, write .ndesc rfl⟩, fun j => write (.keyW j) rfl, fun i => write (.desc i) rfl⟩
  · intro t
    have ht : t = writeReg r v s := hostAccess_writeAccess_idle hr hs v
    clear_value t
    subst ht
    have hBusy : (writeReg r v s).busy = false := (writeReg_busy hr v s).trans hs
    obtain ⟨hPending, hDone, hErr, -⟩ := writeReg_readWrite_frame hr v s
    obtain ⟨-, -, -, -, -, hBodyComplete, hCrcMatch, -, hInit, hDmem, hMisuse, hHazard, -⟩ := writeReg_frame r v s
    refine ⟨?_, fun r' hne hStatus hRecSize => readReg_writeReg_of_ne hr hne hStatus hRecSize v s,
      fun k hk => statusWord_writeReg_bit hr v s hk, fun hHdrLen => statusWord_writeReg hr hHdrLen v s,
      fun hNdesc hDesc => congrArg (BitVec.ofNat 32) (recSize_writeReg hNdesc hDesc v s),
      ⟨hDone, hErr, hBodyComplete, hCrcMatch⟩, ⟨hMisuse, hHazard⟩, hInit, hDmem, hPending⟩
    calc (hostAccess (readAccess r) (writeReg r v s)).readData
        = readReg (writeReg r v s) r := hostAccess_readAccess_idle r hBusy
      _ = inField r v := readReg_writeReg_same hr v s

end Sys2Proof.Machine
end

section
/-! SUPPORT. What the registers read as in the state's own terms: the bytes of the key words (10_state.md R42), REC_SIZE, KIND,
CONFIG and TBL (10_state.md R31, R32, R45, R49). -/

namespace Sys2Proof.Machine

/-- KEY_Wj holds key bytes 4j to 4j+3 (10_state.md R42). -/
theorem keyByte_writeReg_keyW (j : Fin 4) (v : Word) (s : State) (i : Nat) :
    keyByte (writeReg (.keyW j) v s) i =
      if i / 4 = j.val then v.extractLsb' (8 * (3 - i % 4)) 8 else keyByte s i := by
  by_cases h : i / 4 = j.val
  · simp [keyByte, writeReg, h]
  · simp [keyByte, writeReg, h, Ne.symm h]

/-- Settles O34: byte i lies in word i / 4, at place i mod 4 from the most significant byte. -/
theorem keyWordsAreBigEndian : Obligations.KeyWordsAreBigEndian := by
  intro s j v i _
  rw [keyByte_writeReg_keyW]
  by_cases hj : i / 4 = j.val
  · have hCases : i % 4 = 0 ∨ i % 4 = 1 ∨ i % 4 = 2 ∨ i % 4 = 3 := by omega
    have hij : i = 4 * j.val + i % 4 := by omega
    rw [if_pos hj]
    rcases hCases with h | h | h | h <;> rw [h] at hij ⊢ <;> simp [hij]
  · rw [if_neg hj, if_neg (by omega), if_neg (by omega), if_neg (by omega), if_neg (by omega)]

/-! ### What a read hands the Host -/

/-- A maximum of bounded numbers is bounded. -/
theorem foldl_max_le {l : List Nat} {init b : Nat} (hInit : init ≤ b) (hl : ∀ x ∈ l, x ≤ b) : l.foldl max init ≤ b := by
  induction l generalizing init with
  | nil => exact hInit
  | cons x rest ih =>
    obtain ⟨hx, hRest⟩ := List.forall_mem_cons.mp hl
    exact ih (max_le hInit hx) hRest

/-- A field ends at most 4 bytes past the greatest OFF (10_state.md R44, 43_record_parser.md R151). -/
theorem fieldEnd_le (d : BitVec 18) : fieldEnd d ≤ 65539 := by
  have hOff : descOff d < 65536 := (d.extractLsb' 0 16).isLt
  have hWidth : fieldWidth (descW d) ≤ 4 := by
    unfold fieldWidth
    split_ifs <;> omega
  unfold fieldEnd
  omega

/-- REC_SIZE fits its register (10_state.md R45). -/
theorem recSize_le (s : State) : s.recSize ≤ 65539 := by
  refine foldl_max_le (Nat.zero_le _) fun x hx => ?_
  obtain ⟨d, -, rfl⟩ := List.mem_map.mp hx
  exact fieldEnd_le d

theorem toNat_readReg_recSize (s : State) : (readReg s .recSize).toNat = s.recSize := by
  have := recSize_le s
  simp only [readReg, BitVec.toNat_ofNat]
  omega

/-- The KIND register tells the eight message kinds apart (10_state.md R32). -/
theorem kind_eq_iff_readReg (s : State) (k : MessageKind) : s.kind = k ↔ readReg s .kind = k.code.setWidth 32 := by
  refine ⟨fun h => congrArg (fun k => k.code.setWidth 32) h, fun h => ?_⟩
  have hCode : s.kind.code = k.code := by
    have := congrArg (BitVec.setWidth 3) h
    simpa [readReg] using this
  rw [← kind_ofCode_code s.kind, hCode, kind_ofCode_code]

/-- Before READY = 1 a table entry reads as a free value, and at all times as one of 16 bits (10_state.md R49). -/
theorem readReg_tbl_lt (s : State) (i : Fin 256) : (readReg s (.tbl i)).toNat < 65536 := by
  simp only [readReg]
  split_ifs <;> rw [BitVec.toNat_setWidth_of_le (by decide)] <;> exact BitVec.isLt _

theorem toNat_readReg_tbl {s : State} (hs : s.initDone = true) (i : Fin 256) :
    (readReg s (.tbl i)).toNat = s.tbl[i].toNat := by
  simp only [readReg, hs, if_true]
  exact BitVec.toNat_setWidth_of_le (by decide)

theorem toNat_readReg_config (s : State) : (readReg s .config).toNat = if s.crcOrder then 1 else 0 := by
  cases h : s.crcOrder <;> simp [readReg, h]

/-- Settles O59: a read at a register's offset hands the Host `readReg` of it, which is the field of that name, narrow enough
to keep its value in 32 bits. -/
theorem resultRegistersReadOut : Obligations.ResultRegistersReadOut := by
  intro s hs rd
  have read : ∀ r, rd (regOffset r) = readReg s r := fun r => hostAccess_readAccess_idle r hs
  have readNat {n : Nat} (r : RegName) (x : BitVec n) (hr : readReg s r = x.setWidth 32) (hn : n ≤ 32) :
      (rd (regOffset r)).toNat = x.toNat := by
    rw [read r, hr]
    exact BitVec.toNat_setWidth_of_le hn
  have readKind (k : MessageKind) : s.kind = k ↔ rd (regOffset .kind) = k.code.setWidth 32 := by
    rw [read]
    exact kind_eq_iff_readReg s k
  refine ⟨⟨read .id, read .cmd, read .recBase, read .memSize⟩,
    ⟨readNat .errcode _ rfl (by decide), readNat .crcResult _ rfl (by decide), readNat .outLen _ rfl (by decide),
      readNat .bodyNeed _ rfl (by decide), ?recSize⟩,
    ⟨readKind .unknown, readKind .registersReport, readKind .registersAck, readKind .ping, readKind .pingAck,
      readKind .announce, readKind .rawConfigBlock, readKind .identifyResponse⟩,
    ⟨readNat .addrA _ rfl (by decide), readNat .lenA _ rfl (by decide), readNat .addrD _ rfl (by decide), ?config⟩,
    ⟨readNat .hdrTid _ rfl (by decide), readNat .hdrProto _ rfl (by decide), readNat .hdrLen _ rfl (by decide),
      readNat .hdrUnit _ rfl (by decide), readNat .hdrMsgid _ rfl (by decide)⟩,
    ⟨readNat .keyLen _ rfl (by decide), readNat .ndesc _ rfl (by decide)⟩,
    fun j => read (.keyW j), fun i => readNat (.desc i) _ rfl (by decide), fun i => read (.recEntry i),
    fun i => ⟨fun hReady => ?table, ?tableWidth⟩⟩
  case recSize => exact (congrArg BitVec.toNat (read .recSize)).trans (toNat_readReg_recSize s)
  case config => exact (congrArg BitVec.toNat (read .config)).trans (toNat_readReg_config s)
  case table => exact (congrArg BitVec.toNat (read (.tbl i))).trans (toNat_readReg_tbl hReady i)
  case tableWidth => exact (congrArg BitVec.toNat (read (.tbl i))).trans_lt (readReg_tbl_lt s i)

end Sys2Proof.Machine
end

section
/-! SUPPORT. Whose step it is while the Engine has none, and what the Host does with each kind of operation (30_encoding.md
R92). -/

namespace Sys2Proof.Machine

theorem engineEnabled_eq_false {s : State} (hInit : s.initDone = true) (hs : s.busy = false) : engineEnabled s = false := by
  simp [engineEnabled, hInit, hs]

/-- With no turn laid down and no Engine step enabled, the Host moves (assumption log 1). -/
theorem step_eq_hostStep {s : State} (hInit : s.initDone = true) (hs : s.busy = false) (hTurns : s.turns = []) :
    step s = .next (hostStep s) := by
  simp [step, advance, hTurns, engineEnabled_eq_false hInit hs]

theorem hostStep_bus {s : State} {acc : BusAccess} (h : s.hostProg[s.hostPc]? = some (.bus acc)) :
    hostStep s = { hostAccess acc s with hostPc := s.hostPc + 1 } := by
  simp only [hostStep, h, HostOp.triple, HostOp.nextPc]

/-- An operation without an access only moves the Host to its next place (30_encoding.md R93). -/
theorem hostStep_of_triple_none {s : State} {op : HostOp} (h : s.hostProg[s.hostPc]? = some op)
    (ht : HostOp.triple op = none) : hostStep s = { s with hostPc := HostOp.nextPc op s.readData s.hostPc } := by
  simp only [hostStep, h, ht]

/-- Past the end of its program the Host does nothing. -/
theorem hostStep_past_end {s : State} (h : s.hostProg[s.hostPc]? = none) : hostStep s = s := by
  simp only [hostStep, h]

/-- Settles O15: the step is the Host's, and each kind of operation has its rule. -/
theorem hostExecutesItsProgram : Obligations.HostExecutesItsProgram := by
  intro s hInit hs hTurns
  rw [step_eq_hostStep hInit hs hTurns]
  refine ⟨fun acc h => ?bus, fun bit on target h => ?branch, fun target h => ?jump, fun h => ?stop⟩
  case bus => rw [hostStep_bus h]
  case branch => rw [hostStep_of_triple_none h rfl, HostOp.nextPc]
  case jump => rw [hostStep_of_triple_none h rfl, HostOp.nextPc]
  case stop =>
    rcases h with hHalt | hEnd
    · rw [hostStep_of_triple_none hHalt rfl, HostOp.nextPc]
    · rw [hostStep_past_end hEnd]

end Sys2Proof.Machine
end

section
/-! SUPPORT. No step changes the tape an instance draws its free values from (assumption log 15), and an event of one instance
of a platform replaces that instance alone (10_state.md R55). -/

namespace Sys2Proof.Machine

/-! ### The tape -/

theorem writeReg_tape (r : RegName) (v : Word) (s : State) : (writeReg r v s).tape = s.tape := by
  cases r <;> rfl

theorem misuse_tape (acc : BusAccess) (s : State) : (misuse acc s).tape = s.tape := by
  unfold misuse
  split <;> rfl

theorem hostAccess_tape (acc : BusAccess) (s : State) : (hostAccess acc s).tape = s.tape := by
  rcases hostAccess_cases acc s with h | ⟨v, h⟩ | h | ⟨r, v, -, -, h⟩ | ⟨r, v, -, -, h⟩ | ⟨a, v, -, -, h⟩ | ⟨a, v, -, -, h⟩ <;>
    rw [h]
  · exact misuse_tape acc s
  · rfl
  · exact writeReg_tape r v s
  · exact writeReg_tape r v s
  · rfl

theorem hostStep_tape (s : State) : (hostStep s).tape = s.tape := by
  rcases hostStep_cases s with h | ⟨acc, -, h⟩ | ⟨pc, h⟩ <;> rw [h]
  exact hostAccess_tape acc s

/-- No command stages a write of the tape. -/
theorem exec_tape {i : Instr} {s t : State} (h : exec i s = .next t) : t.tape = s.tape := by
  cases i with
  | nop => rw [execNop_cases h]; rfl
  | crc c => rcases execCrc_cases h with ⟨-, rfl⟩ | ⟨-, rfl⟩ <;> rfl
  | crcAppend c => rcases execCrcAppend_cases h with ⟨-, rfl⟩ | ⟨-, rfl⟩ <;> rfl
  | crcVerify c => rcases execCrcVerify_cases h with ⟨-, rfl⟩ | ⟨-, rfl⟩ <;> rfl
  | decodeHdr =>
    rcases execDecodeHdr_cases h with ⟨-, -, -, rfl⟩ | ⟨-, rfl⟩ | ⟨-, rfl⟩ | ⟨-, -, -, rfl⟩ <;> rfl
  | classify => rcases execClassify_cases h with ⟨-, rfl⟩ | ⟨-, rfl⟩ <;> rfl
  | deobf =>
    rcases execDeobf_cases h with ⟨-, -, -, -, -, rfl⟩ | ⟨-, rfl⟩ | ⟨-, rfl⟩ | ⟨-, -, rfl⟩ <;> rfl
  | parse => rcases execParse_cases h with ⟨-, -, -, -, rfl⟩ | ⟨-, rfl⟩ | ⟨-, rfl⟩ | ⟨-, rfl⟩ <;> rfl
  | buildHdr => rcases execBuildHdr_cases h with ⟨-, rfl⟩ | ⟨-, rfl⟩ <;> rfl
  | buildAck => rcases execBuildAck_cases h with ⟨-, -, -, rfl⟩ | ⟨-, rfl⟩ | ⟨-, rfl⟩ <;> rfl
  | pingEcho =>
    rcases execPingEcho_cases h with ⟨-, -, -, -, rfl⟩ | ⟨-, rfl⟩ | ⟨-, rfl⟩ | ⟨-, rfl⟩ <;> rfl

theorem engineStep_tape {s t : State} (h : engineStep s = .next t) : t.tape = s.tape := by
  rcases engineStep_cases h with ⟨-, rfl⟩ | ⟨-, -, rfl⟩ | ⟨-, -, rfl⟩ | ⟨w, i, -, -, -, hExec⟩ | ⟨w, why, -, -, -, rfl⟩
  · rfl
  · rfl
  · rfl
  · exact exec_tape hExec
  · rfl

theorem step_tape {s t : State} (h : step s = .next t) : t.tape = s.tape := by
  obtain ⟨u, hu, hStep⟩ := step_cases h
  have hTape : u.tape = s.tape := by rcases hu with rfl | rfl <;> rfl
  rw [← hTape]
  rcases hStep with rfl | ⟨-, hEngine⟩ | rfl | ⟨-, rfl⟩
  · exact hostStep_tape u
  · exact engineStep_tape hEngine
  · rfl
  · rfl

/-! ### The instances of a platform -/

theorem reset_cells_getElem? {k : Nat} (hk : k < Config.nInst) :
    Platform.reset.cells[k]? = some { State.reset with tape := k } := by
  simp [Platform.reset, hk]

/-- A step of instance `k` replaces that instance or changes nothing. -/
theorem stepAt_cases {p q : Platform} {k : Nat} (h : p.stepAt k = .next q) :
    q = p ∨ ∃ t, q = { cells := p.cells.set k t } := by
  unfold Platform.stepAt at h
  split at h
  · injection h with h
    exact .inl h.symm
  · split at h
    · injection h with h
      exact .inr ⟨_, h.symm⟩
    · contradiction
    · contradiction

/-- A Host access changes nothing or replaces the instance its address is routed to. -/
theorem access_cases (p : Platform) (addr width : Nat) (value : Option Word) :
    p.access addr width value = p ∨
      ∃ k off t, p.route addr = some (k, off) ∧ p.access addr width value = { cells := p.cells.set k t } := by
  unfold Platform.access
  split
  · exact .inl rfl
  · rename_i k off hRoute
    split
    · exact .inl rfl
    · exact .inr ⟨k, off, _, hRoute, rfl⟩

/-- Settles O58: an event of one instance replaces its entry in the list of instances, and every other entry stays. -/
theorem instancesAreIsolated : Obligations.InstancesAreIsolated := by
  refine ⟨⟨Nat.succ_pos _, by simp [Platform.reset], fun k hk => reset_cells_getElem? hk⟩, fun s t => step_tape,
    fun p q k j h hjk => ?_, fun p addr width value j hj => ?_⟩
  · rcases stepAt_cases h with rfl | ⟨t, rfl⟩
    · rfl
    · exact List.getElem?_set_ne hjk.symm
  · rcases access_cases p addr width value with h | ⟨k, off, t, hRoute, h⟩ <;> rw [h]
    have hkj : k ≠ j := fun hkj => hj off (hkj ▸ hRoute)
    exact List.getElem?_set_ne hkj

end Sys2Proof.Machine
end

section
/-! SUPPORT. The three ways a Host access goes (20_memory.md R61 to R64): a register access, a byte access, a misuse. -/

namespace Sys2Proof.Machine

/-! ### Where an access goes -/

/-- The widths and alignments the two parts of the window allow (20_memory.md R62). -/
theorem allowed_iff (acc : BusAccess) : BusAccess.allowed acc = true ↔
    (acc.offset.toNat < 0x1000 ∧ acc.width = 32 ∧ acc.offset.toNat % 4 = 0) ∨
      (0x1000 ≤ acc.offset.toNat ∧ acc.width = 8) := by
  unfold BusAccess.allowed
  simp only [Config.dmemWindow, Config.regWidth]
  by_cases hOff : acc.offset.toNat < 0x1000
  · simp [hOff, Nat.not_le.mpr hOff]
  · simp [hOff, Nat.le_of_not_lt hOff]

theorem hostAccess_registerPart {acc : BusAccess} (hOff : acc.offset.toNat < 0x1000) (hWidth : acc.width = 32)
    (hAligned : acc.offset.toNat % 4 = 0) (s : State) : hostAccess acc s = registerAccess acc s := by
  have hAllowed := (allowed_iff acc).mpr (.inl ⟨hOff, hWidth, hAligned⟩)
  simp only [hostAccess, hAllowed, Config.dmemWindow, hOff, Bool.not_true, Bool.false_eq_true, if_false, if_true]

theorem hostAccess_dmemPart {acc : BusAccess} (hOff : 0x1000 ≤ acc.offset.toNat) (hWidth : acc.width = 8) (s : State) :
    hostAccess acc s = byteAccess acc s := by
  have hAllowed := (allowed_iff acc).mpr (.inr ⟨hOff, hWidth⟩)
  simp only [hostAccess, hAllowed, Config.dmemWindow, Nat.not_lt.mpr hOff, Bool.not_true, Bool.false_eq_true, if_false]

theorem hostAccess_not_allowed {acc : BusAccess} (h : BusAccess.allowed acc ≠ true) (s : State) :
    hostAccess acc s = misuse acc s := by
  simp [hostAccess, h]

/-! ### Unassigned offsets and misuse -/

/-- No register is found at an offset that is none's. -/
theorem regAt_eq_none {off : Nat} (h : ∀ r : RegName, regOffset r ≠ off) : regAt off = none := by
  cases hReg : regAt off with
  | none => rfl
  | some r => exact absurd (regOffset_of_regAt hReg) (h r)

/-- Where no register stands, a read gives 0 and a write is ignored (20_memory.md R63). -/
theorem registerAccess_unassigned {acc : BusAccess} (h : ∀ r : RegName, regOffset r ≠ acc.offset.toNat) (s : State) :
    registerAccess acc s = if acc.value.isSome then s else returnRead 0#32 s := by
  cases hValue : acc.value <;> simp only [registerAccess, regAt_eq_none h, hValue] <;> rfl

/-- Past the last DMEM byte, a read gives 0 and a write is ignored (20_memory.md R63). -/
theorem byteAccess_unassigned {acc : BusAccess} (h : 0x1800 ≤ acc.offset.toNat) (s : State) :
    byteAccess acc s = if acc.value.isSome then s else returnRead 0#32 s := by
  have hPast : ¬acc.offset.toNat - Config.dmemWindow < Config.dmemSize := by
    simp only [Config.dmemWindow, Config.dmemSize]
    omega
  cases hValue : acc.value with
  | none => simp only [byteAccess, hValue, hostReadByte, if_neg hPast]; rfl
  | some v => simp only [byteAccess, hValue, hostWriteByte, if_neg hPast]; rfl

/-- Settles O46: in both parts of the window such an access reaches neither a register nor a DMEM byte. -/
theorem unassignedOffsetsReadZero : Obligations.UnassignedOffsetsReadZero := by
  intro s off v
  refine ⟨fun hOff hAligned hNone => ?registerPart, fun hOff => ?dmemPart⟩
  case registerPart =>
    have hAccess : ∀ value, hostAccess { offset := off, width := 32, value := value } s =
        if value.isSome then s else returnRead 0#32 s := fun value =>
      (hostAccess_registerPart hOff rfl hAligned s).trans (registerAccess_unassigned hNone s)
    exact ⟨congrArg State.readData (hAccess none), hAccess (some v)⟩
  case dmemPart =>
    have hAccess : ∀ value, hostAccess { offset := off, width := 8, value := value } s =
        if value.isSome then s else returnRead 0#32 s := fun value =>
      (hostAccess_dmemPart (Nat.le_trans (by decide) hOff) rfl s).trans (byteAccess_unassigned hOff s)
    exact ⟨congrArg State.readData (hAccess none), hAccess (some v)⟩

/-- A misuse is recorded; apart from that, a misused read changes what the Host holds and the number of the next draw. -/
theorem misuse_eq (acc : BusAccess) (s : State) :
    misuse acc s = { s with
      faultBusMisuse := true, readData := (misuse acc s).readData, draws := (misuse acc s).draws } := by
  unfold misuse
  split <;> rfl

/-- Settles O47: an access of another width or alignment is not allowed, and then it is a misuse. -/
theorem misuseIsRecordedAndChangesNothingElse : Obligations.MisuseIsRecordedAndChangesNothingElse := by
  intro s acc h
  have hNot : BusAccess.allowed acc ≠ true := by
    rw [Ne, allowed_iff]
    omega
  rw [hostAccess_not_allowed hNot]
  exact ⟨by rw [misuse_eq], misuse_eq acc s⟩

/-! ### Reads -/

/-- While a command is pending, every register but STATUS reads as a free value (10_state.md R53). -/
theorem hostReadReg_busy {s : State} (hs : s.busy = true) {r : RegName} (hr : r ≠ .status) :
    hostReadReg r s = returnRead (Config.freeWord s.tape s.draws) s := by
  simp [hostReadReg, hs, hr, freshWord_eq]

/-- TBL before READY = 1 reads as a free 16-bit value (10_state.md R49). -/
theorem readReg_tbl_not_ready {s : State} (hs : s.initDone = false) (i : Fin 256) :
    readReg s (.tbl i) = ((Config.freeWord s.tape s.draws).setWidth 16).setWidth 32 := by
  simp [readReg, hs, freshWord_eq]

/-- The byte read of the DMEM byte at address `x` (20_memory.md R62). -/
abbrev readByteAccess (x : Nat) : BusAccess := { offset := BitVec.ofNat 13 (0x1000 + x), width := 8, value := none }

/-- The byte write of `v` at the DMEM address `x` (20_memory.md R62). -/
abbrev writeByteAccess (x : Nat) (v : Word) : BusAccess :=
  { offset := BitVec.ofNat 13 (0x1000 + x), width := 8, value := some v }

/-- No DMEM byte's offset is cut by the 13 bits of the window. -/
theorem toNat_ofNat_dmemOffset {x : Nat} (hx : x < 2048) : (BitVec.ofNat 13 (0x1000 + x)).toNat = 0x1000 + x := by
  rw [BitVec.toNat_ofNat]
  omega

theorem hostAccess_readByteAccess {x : Nat} (hx : x < 2048) (s : State) :
    hostAccess (readByteAccess x) s = hostReadByte x s := by
  rw [hostAccess_dmemPart (by rw [toNat_ofNat_dmemOffset hx]; omega) rfl]
  simp only [byteAccess, toNat_ofNat_dmemOffset hx, Config.dmemWindow, Nat.add_sub_cancel_left]

theorem hostAccess_writeByteAccess {x : Nat} (hx : x < 2048) (v : Word) (s : State) :
    hostAccess (writeByteAccess x v) s = hostWriteByte x (v.setWidth 8) s := by
  rw [hostAccess_dmemPart (by rw [toNat_ofNat_dmemOffset hx]; omega) rfl]
  simp only [byteAccess, toNat_ofNat_dmemOffset hx, Config.dmemWindow, Nat.add_sub_cancel_left]

/-- While a command is pending, a DMEM byte reads as a free byte (10_state.md R53). -/
theorem hostReadByte_busy {s : State} (hs : s.busy = true) {x : Nat} (hx : x < 2048) :
    hostReadByte x s = returnRead (((Config.freeWord s.tape s.draws).setWidth 8).setWidth 32) s := by
  simp [hostReadByte, hs, hx, freshWord_eq]

theorem hostReadByte_idle {s : State} (hs : s.busy = false) {x : Nat} (hx : x < 2048) :
    hostReadByte x s = returnRead ((s.dmem.readByte (s.draw 0) x).setWidth 32) s := by
  simp [hostReadByte, hs, hx]

theorem hostWriteByte_idle {s : State} (hs : s.busy = false) {x : Nat} (hx : x < 2048) (v : Byte) :
    hostWriteByte x v s = { s with dmem := s.dmem.store x v } := by
  simp [hostWriteByte, hs, hx]

/-- A read of an allowed width and alignment is a `returnRead`, whatever it reads (20_memory.md R71). -/
theorem hostAccess_read_allowed {acc : BusAccess} (hAllowed : BusAccess.allowed acc = true) (hRead : acc.value = none)
    (s : State) : ∃ v, hostAccess acc s = returnRead v s := by
  rcases (allowed_iff acc).mp hAllowed with ⟨hOff, hWidth, hAligned⟩ | ⟨hOff, hWidth⟩
  · rw [hostAccess_registerPart hOff hWidth hAligned, registerAccess, hRead]
    cases regAt acc.offset.toNat with
    | none => exact ⟨_, rfl⟩
    | some r => exact hostReadReg_cases r s
  · rw [hostAccess_dmemPart hOff hWidth, byteAccess, hRead]
    exact hostReadByte_cases _ s

/-- Settles O48: each unspecified read hands out its free value, and every allowed read only hands out a value. -/
theorem hostReadsHaveNoSideEffect : Obligations.HostReadsHaveNoSideEffect := by
  refine ⟨fun s hs => ⟨fun r hr => ?busyReg, fun x hx => ?busyByte⟩, fun s i hs hInit => ?notReady,
    fun s off width hAllowed => ?frame⟩
  case busyReg =>
    rw [hostAccess_readAccess, hostReadReg_busy hs hr]
    rfl
  case busyByte =>
    rw [hostAccess_readByteAccess hx, hostReadByte_busy hs hx]
    rfl
  case notReady => exact (hostAccess_readAccess_idle (.tbl i) hs).trans (readReg_tbl_not_ready hInit i)
  case frame =>
    obtain ⟨v, hRead⟩ := hostAccess_read_allowed hAllowed rfl s
    rw [hRead]
    rfl

/-! ### DMEM bytes -/

theorem written_store_same (m : Memory) (a : Nat) (v : Byte) : (m.store a v).written a = true := by
  simp [Memory.written, lookup_store]

theorem sameOutside_store (m : Memory) (a : Nat) (v : Byte) : sameOutside m (m.store a v) a 1 := by
  intro x hx
  rw [lookup_store, if_neg (by omega)]

theorem readByte_store_same (m : Memory) (a : Nat) (v : Byte) (draw : Draw) : (m.store a v).readByte draw a = v :=
  readByte_of_lookup (by rw [lookup_store, if_pos rfl]) draw

/-- While idle, a byte read hands the Host what the address reads as at that draw. -/
theorem readData_readByteAccess_idle {s : State} (hs : s.busy = false) {x : Nat} (hx : x < 2048) :
    (hostAccess (readByteAccess x) s).readData = (s.dmem.readByte (s.draw 0) x).setWidth 32 := by
  rw [hostAccess_readByteAccess hx, hostReadByte_idle hs hx]
  rfl

theorem toNat_setWidth_byte (v : Word) : ((v.setWidth 8).setWidth 32 : Word).toNat = v.toNat % 256 := by
  simp only [BitVec.toNat_setWidth]
  omega

/-- Settles O50: while idle, a byte write is one store into DMEM, and a byte read looks that address up. -/
theorem dmemBytesReadBack : Obligations.DmemBytesReadBack := by
  intro s x v hx hs t
  have ht : t = { s with dmem := s.dmem.store x (v.setWidth 8) } :=
    (hostAccess_writeByteAccess hx v s).trans (hostWriteByte_idle hs hx _)
  clear_value t
  have hDmem : t.dmem = s.dmem.store x (v.setWidth 8) := by rw [ht]
  have hBusy : t.busy = false := by rw [ht]; exact hs
  refine ⟨by rw [ht], hDmem ▸ written_store_same _ _ _, hDmem ▸ sameOutside_store _ _ _, ?readsBack,
    fun hUnwritten => ?unwritten⟩
  case readsBack =>
    rw [readData_readByteAccess_idle hBusy hx, hDmem, readByte_store_same, toNat_setWidth_byte]
  case unwritten =>
    rw [readData_readByteAccess_idle hs hx, readByte_of_unwritten hUnwritten, draw_tape, draw_number, Nat.add_zero]

end Sys2Proof.Machine
end

section
/-! SUPPORT. The invariant of every step: each shared operation keeps `StepInv`, so each command, each Host access and each
agent does (20_memory.md R68, 45_control.md R190 to R194, 60_exceptions.md R200, R210). -/

namespace Sys2Proof.Machine

/-! ### Bounds of the results -/

/-- CLASSIFY never finds a kind of an acknowledgement (10_state.md R32). -/
theorem kindOf_produced (m : Byte) (len : Nat) : kindOf m len ≠ .registersAck ∧ kindOf m len ≠ .pingAck := by
  unfold kindOf
  split_ifs <;> decide

theorem be16_lt (bs : List Byte) (i : Nat) : be16 bs i < 65536 := by
  have hHigh := (byteAt bs i).isLt
  have hLow := (byteAt bs (i + 1)).isLt
  unfold be16
  omega

/-- A frame of at least 9 bytes misses at most 65532 of the bytes a 16-bit length declares (10_state.md R35). -/
theorem toNat_bodyNeed_le {len n : Nat} (hLen : len < 65536) (hn : 9 ≤ n) :
    (BitVec.ofNat 17 (bodyNeedCount len n)).toNat ≤ 65532 := by
  simp only [BitVec.toNat_ofNat, bodyNeedCount]
  omega

/-- The length of a reply that lies inside DMEM is inside OUT_LEN's 16 bits and its bound (10_state.md R34). -/
theorem toNat_outLen_le {d n : Nat} (h : inRange d n = true) : (BitVec.ofNat 16 n).toNat ≤ Config.dmemSize := by
  have hn : d + n ≤ Config.dmemSize := (inRange_iff d n).mp h
  rw [BitVec.toNat_ofNat]
  exact (Nat.mod_le n _).trans (by omega)

theorem code_mem_knownCodes (e : ErrCode) : e.code ∈ knownCodes := by
  cases e <;> decide

/-! ### The shared operations -/

/-- Storing bytes inside DMEM keeps the invariant (20_memory.md R68). -/
theorem stepInv_storeBytes {s : State} (h : StepInv s) {a : Nat} {bs : List Byte} (ha : inRange a bs.length = true) :
    StepInv { s with dmem := s.dmem.storeBytes a bs } :=
  { h with memWf := storeBytes_wf h.memWf ((inRange_iff a bs.length).mp ha) }

theorem stepInv_store {s : State} (h : StepInv s) {a : Nat} (v : Byte) (ha : a < Config.dmemSize) :
    StepInv { s with dmem := s.dmem.store a v } :=
  { h with memWf := store_wf v h.memWf ha }

/-- An issue clears DONE, ERR and ERRCODE (45_control.md R190). -/
theorem stepInv_issue {s : State} (h : StepInv s) (w : Word) : StepInv (issue w s) :=
  { h with
    heldUntilReady := fun _ => rfl
    errIff := by simp
    busyClears := fun _ => ⟨rfl, rfl⟩
    codeKnown := fun _ => by simp [knownCodes] }

/-- A completion without error, once the table is built (45_control.md R192, R194). -/
theorem stepInv_completeOk {s : State} (h : StepInv s) (hInit : s.initDone = true) : StepInv (completeOk s) :=
  { h with
    heldUntilReady := fun hNot => absurd (hInit.symm.trans hNot) (by decide)
    errIff := by simp
    busyClears := fun hBusy => absurd hBusy (by simp [State.busy])
    codeKnown := fun _ => by simp [knownCodes] }

/-- An error leaves a code of the list, which is never 0x00 (60_exceptions.md R200, R201). -/
theorem stepInv_raiseError {s : State} (h : StepInv s) (hInit : s.initDone = true) (e : ErrCode) :
    StepInv (raiseError e s) :=
  { h with
    heldUntilReady := fun hNot => absurd (hInit.symm.trans hNot) (by decide)
    errIff := by simp [errCode_ne_zero e]
    busyClears := fun hBusy => absurd hBusy (by simp [State.busy])
    codeKnown := fun _ => code_mem_knownCodes e }

theorem stepInv_buildTable {s : State} (h : StepInv s) : StepInv (buildTable s) :=
  { h with
    tblBuilt := fun _ => rfl
    heldUntilReady := fun hNot => absurd hNot (by simp) }

theorem stepInv_returnRead {s : State} (h : StepInv s) (v : Word) : StepInv (returnRead v s) := { h with }

/-- With HOST_HAZARD on record, the clauses on specified values ask nothing (60_exceptions.md R210). -/
theorem stepInv_hazard {s : State} (h : StepInv s) : StepInv (hazard s) :=
  { h with
    taintRecorded := fun _ => rfl
    codeKnown := fun hNo => absurd hNo (by simp)
    kindProduced := fun hNo => absurd hNo (by simp)
    outLenBound := fun hNo => absurd hNo (by simp)
    bodyNeedBound := fun hNo => absurd hNo (by simp) }

/-- A completion with free results: its HOST_HAZARD is on record, and ERR is tied to the free code
(70_reset_and_hazards.md R235). -/
theorem stepInv_completeTainted {s : State} (h : StepInv s) (hInit : s.initDone = true) (hTainted : s.tainted = true) :
    StepInv (completeTainted s) := by
  have hHazard : (completeTainted s).faultHostHazard ≠ false := by simp [h.taintRecorded hTainted]
  exact
    { memWf := wf_nil
      tblBuilt := h.tblBuilt
      heldUntilReady := fun hNot => absurd (hInit.symm.trans hNot) (by decide)
      errIff := by simp
      busyClears := fun hBusy => absurd hBusy (by simp [State.busy])
      taintRecorded := fun hNot => absurd hNot (by simp)
      codeKnown := fun hNo => absurd hNo hHazard
      kindProduced := fun hNo => absurd hNo hHazard
      outLenBound := fun hNo => absurd hNo hHazard
      bodyNeedBound := fun hNo => absurd hNo hHazard }

theorem stepInv_reset : StepInv State.reset where
  memWf := reset_dmem_wf
  tblBuilt hInit := absurd hInit (by simp [State.reset])
  heldUntilReady _ := rfl
  errIff := by simp [State.reset]
  busyClears _ := ⟨rfl, rfl⟩
  taintRecorded hTainted := absurd hTainted (by simp [State.reset])
  codeKnown _ := by simp [State.reset, knownCodes]
  kindProduced _ := by simp [State.reset]
  outLenBound _ := by simp [State.reset]
  bodyNeedBound _ := by simp [State.reset]

/-- What goes on over a reset is no part of the invariant (70_reset_and_hazards.md R230; assumption log 9). -/
theorem stepInv_platformReset (s : State) : StepInv (platformReset s) := { stepInv_reset with }

/-! ### The agents -/

theorem stepInv_writeReg {s : State} (h : StepInv s) (r : RegName) (v : Word) : StepInv (writeReg r v s) := by
  cases r with
  | cmd => exact stepInv_issue h v
  | _ => exact { h with }

theorem stepInv_misuse {s : State} (h : StepInv s) (acc : BusAccess) : StepInv (misuse acc s) := by
  unfold misuse
  split <;> exact { h with }

theorem stepInv_hostAccess {s : State} (h : StepInv s) (acc : BusAccess) : StepInv (hostAccess acc s) := by
  rcases hostAccess_cases acc s with hMisuse | ⟨v, hRead⟩ | hNone | ⟨r, v, -, -, hReg⟩ | ⟨r, v, -, -, hReg⟩ |
    ⟨a, v, ha, -, hByte⟩ | ⟨a, v, ha, -, hByte⟩
  · exact hMisuse ▸ stepInv_misuse h acc
  · exact hRead ▸ stepInv_returnRead h v
  · exact hNone.symm ▸ h
  · exact hReg ▸ stepInv_writeReg h r v
  · exact hReg ▸ stepInv_hazard (stepInv_writeReg h r v)
  · exact hByte ▸ stepInv_store h v ha
  · exact hByte ▸ stepInv_hazard (stepInv_store h v ha)

theorem stepInv_hostStep {s : State} (h : StepInv s) : StepInv (hostStep s) := by
  rcases hostStep_cases s with hNone | ⟨acc, -, hAccess⟩ | ⟨pc, hMove⟩
  · exact hNone.symm ▸ h
  · exact hAccess ▸ { stepInv_hostAccess h acc with }
  · exact hMove ▸ { h with }

/-- Every command keeps the invariant: its staged writes do, and so does the completion or the error that ends it. -/
theorem stepInv_exec {i : Instr} {s t : State} (h : StepInv s) (hInit : s.initDone = true) (hExec : exec i s = .next t) :
    StepInv t := by
  have hError : ∀ e, StepInv (raiseError e s) := stepInv_raiseError h hInit
  cases i with
  | nop => exact execNop_cases hExec ▸ stepInv_completeOk h hInit
  | crc c =>
    rcases execCrc_cases hExec with ⟨-, rfl⟩ | ⟨-, rfl⟩
    · exact stepInv_completeOk { h with } hInit
    · exact hError _
  | crcAppend c =>
    rcases execCrcAppend_cases hExec with ⟨hRange, rfl⟩ | ⟨-, rfl⟩
    · have hBytes : inRange (s.srcAddr + s.srcLen) (crcBytes s.crcOrder (rangeCrc c s)).length = true := by
        simpa [Nat.add_assoc] using hRange
      exact stepInv_completeOk { stepInv_storeBytes h hBytes with } hInit
    · exact hError _
  | crcVerify c =>
    rcases execCrcVerify_cases hExec with ⟨-, rfl⟩ | ⟨-, rfl⟩
    · exact stepInv_completeOk { h with } hInit
    · exact hError _
  | decodeHdr =>
    rcases execDecodeHdr_cases hExec with ⟨hMin, -, -, rfl⟩ | ⟨-, rfl⟩ | ⟨-, rfl⟩ | ⟨-, -, -, rfl⟩
    · exact stepInv_completeOk { h with bodyNeedBound := fun _ => toNat_bodyNeed_le (be16_lt _ 4) hMin } hInit
    all_goals exact hError _
  | classify =>
    rcases execClassify_cases hExec with ⟨-, rfl⟩ | ⟨-, rfl⟩
    · exact stepInv_completeOk { h with kindProduced := fun _ => kindOf_produced _ _ } hInit
    · exact hError _
  | deobf =>
    rcases execDeobf_cases hExec with ⟨-, -, -, hRange, -, rfl⟩ | ⟨-, rfl⟩ | ⟨-, rfl⟩ | ⟨-, -, rfl⟩
    · have hBytes : inRange s.dstAddr (xorKey s s.keyLen.toNat (memRead s 0 s.srcAddr s.srcLen)).length = true := by
        rwa [xorKey_length, memRead_length]
      exact stepInv_completeOk { stepInv_storeBytes h hBytes with } hInit
    all_goals exact hError _
  | parse =>
    rcases execParse_cases hExec with ⟨-, -, -, -, rfl⟩ | ⟨-, rfl⟩ | ⟨-, rfl⟩ | ⟨-, rfl⟩
    · exact stepInv_completeOk { h with } hInit
    all_goals exact hError _
  | buildHdr =>
    rcases execBuildHdr_cases hExec with ⟨hRange, rfl⟩ | ⟨-, rfl⟩
    · have hBytes : inRange s.dstAddr (hdrImage s s.lenA).length = true := by rwa [hdrImage_length]
      exact stepInv_completeOk { stepInv_storeBytes h hBytes with outLenBound := fun _ => toNat_outLen_le hRange } hInit
    · exact hError _
  | buildAck =>
    rcases execBuildAck_cases hExec with ⟨-, hRange, -, rfl⟩ | ⟨-, rfl⟩ | ⟨-, rfl⟩
    · have hBytes : inRange s.dstAddr
          (ackFrame s ++ crcBytes s.crcOrder (crc16 s.tbl Config.crcInit (ackFrame s))).length = true := by
        rwa [List.length_append, ackFrame_length, crcBytes_length, show 8 + s.srcLen + 2 = s.srcLen + 10 by omega]
      exact stepInv_completeOk { stepInv_storeBytes h hBytes with outLenBound := fun _ => toNat_outLen_le hRange } hInit
    all_goals exact hError _
  | pingEcho =>
    rcases execPingEcho_cases hExec with ⟨-, -, hRange, -, rfl⟩ | ⟨-, rfl⟩ | ⟨-, rfl⟩ | ⟨-, rfl⟩
    · have hBytes : inRange s.dstAddr
          (hdrImage s s.hdrLen ++ memRead s 0 s.srcAddr (s.hdrLen.toNat - 2)).length = true := by
        rwa [List.length_append, hdrImage_length, memRead_length, Nat.add_comm]
      exact stepInv_completeOk { stepInv_storeBytes h hBytes with outLenBound := fun _ => toNat_outLen_le hRange } hInit
    all_goals exact hError _

theorem stepInv_engineStep {s t : State} (h : StepInv s) (hStep : engineStep s = .next t) : StepInv t := by
  rcases engineStep_cases hStep with ⟨-, rfl⟩ | ⟨-, -, rfl⟩ | ⟨hInit, hTainted, rfl⟩ | ⟨w, i, hInit, -, -, hExec⟩ |
    ⟨w, why, hInit, -, -, rfl⟩
  · exact stepInv_buildTable h
  · exact h
  · exact stepInv_completeTainted h hInit hTainted
  · exact stepInv_exec h hInit hExec
  · exact stepInv_raiseError h hInit .badOpcode

/-- Settles O56: using up a turn changes nothing the invariant speaks of, and then one agent moves, each of which keeps it. -/
theorem everyStepKeepsTheInvariant : Obligations.EveryStepKeepsTheInvariant := by
  intro s t h hStep
  obtain ⟨u, hu, hAgent⟩ := step_cases hStep
  have hInv : StepInv u := by
    rcases hu with rfl | rfl
    · exact h
    · exact { h with }
  rcases hAgent with rfl | ⟨-, hEngine⟩ | rfl | ⟨-, rfl⟩
  · exact stepInv_hostStep hInv
  · exact stepInv_engineStep hInv hEngine
  · exact hInv
  · exact stepInv_platformReset u

end Sys2Proof.Machine
end

section
/-! SUPPORT. The decoder and the encoder as inverse readings of one format (30_encoding.md R80 to R90): the fields of a word
and the word of fields, the command OP and C name, and the words that are a command's. -/

namespace Sys2Proof

/-! ### Words and fields -/

/-- OP, C and RES stand one above the other in the word (30_encoding.md R80). -/
theorem Cmd32.getLsbD_toWord (f : Cmd32) (k : Nat) :
    f.toWord.getLsbD k = if k < 8 then f.op.getLsbD k else if k = 8 then f.c else f.res.getLsbD (k - 9) := by
  show (f.res ++ BitVec.ofBool f.c ++ f.op : BitVec (23 + 1 + 8)).getLsbD k = _
  rw [BitVec.getLsbD_append, BitVec.getLsbD_append]
  split_ifs with hOp h1 hC hC
  · rfl
  · simp [hC]
  · omega
  · omega
  · rw [show k - 8 - 1 = k - 9 by omega]

theorem Cmd32.ofWord_toWord (f : Cmd32) : Cmd32.ofWord f.toWord = f := by
  have hOp : f.toWord.extractLsb' 0 8 = f.op := by
    apply BitVec.eq_of_getLsbD_eq
    intro k hk
    simp only [BitVec.getLsbD_extractLsb', Cmd32.getLsbD_toWord, Nat.zero_add, hk, decide_true, Bool.true_and, if_true]
  have hC : f.toWord.getLsbD 8 = f.c := f.getLsbD_toWord 8
  have hRes : f.toWord.extractLsb' 9 23 = f.res := by
    apply BitVec.eq_of_getLsbD_eq
    intro k hk
    simp only [BitVec.getLsbD_extractLsb', Cmd32.getLsbD_toWord, hk, decide_true, Bool.true_and]
    rw [if_neg (by omega), if_neg (by omega), Nat.add_sub_cancel_left]
  simp only [Cmd32.ofWord, hOp, hC, hRes]

theorem Cmd32.toWord_ofWord (w : Word) : (Cmd32.ofWord w).toWord = w := by
  apply BitVec.eq_of_getLsbD_eq
  intro k hk
  simp only [Cmd32.getLsbD_toWord, Cmd32.ofWord, BitVec.getLsbD_extractLsb', Nat.zero_add]
  split_ifs with hOp hC
  · simp [hOp]
  · rw [hC]
  · rw [show 9 + (k - 9) = k by omega, show decide (k - 9 < 23) = true by simp; omega, Bool.true_and]

/-- A word is a command's encoding exactly when its fields are the command's (30_encoding.md R80, R81). -/
theorem eq_encode_iff (w : Word) (i : Instr) : w = encode i ↔ Cmd32.ofWord w = i.fields :=
  ⟨fun h => h ▸ i.fields.ofWord_toWord, fun h => (Cmd32.toWord_ofWord w).symm.trans (congrArg Cmd32.toWord h)⟩

/-! ### The opcode map -/

/-- Every OP of the map names a command of that OP, with C where its row has one (30_encoding.md R81, R83). -/
theorem opInstr_of_mem {op : Byte} (hOp : op ∈ opcodes) (c : Bool) :
    ∃ i, opInstr op c = some i ∧ i.fields = { op := op, c := c && continueOpcodes.contains op, res := 0#23 } := by
  simp only [opcodes, List.mem_cons, List.not_mem_nil, or_false] at hOp
  rcases hOp with rfl | rfl | rfl | rfl | rfl | rfl | rfl | rfl | rfl | rfl | rfl <;> cases c <;> exact ⟨_, rfl, rfl⟩

/-- No other OP names one (30_encoding.md R85). -/
theorem opInstr_of_not_mem {op : Byte} (hOp : op ∉ opcodes) (c : Bool) : opInstr op c = none := by
  simp only [opcodes, List.mem_cons, List.not_mem_nil, or_false, not_or] at hOp
  simp [opInstr, hOp]

theorem fields_of_opInstr {op : Byte} {c : Bool} {i : Instr} (h : opInstr op c = some i) :
    i.fields = { op := op, c := c && continueOpcodes.contains op, res := 0#23 } := by
  by_cases hOp : op ∈ opcodes
  · obtain ⟨j, hj, hFields⟩ := opInstr_of_mem hOp c
    obtain rfl : i = j := Option.some.inj (h.symm.trans hj)
    exact hFields
  · exact absurd (h.symm.trans (opInstr_of_not_mem hOp c)) (Option.some_ne_none i)

/-- Every command's fields are legal, as those of its word are. -/
theorem fields_wellFormed (i : Instr) : i.fields.wellFormed = true := by
  rw [← (eq_encode_iff (encode i) i).mp rfl]
  cases i
  exacts [Laws.EncodeLegal.nop, Laws.EncodeLegal.crc _, Laws.EncodeLegal.crcAppend _, Laws.EncodeLegal.crcVerify _,
    Laws.EncodeLegal.decodeHdr, Laws.EncodeLegal.classify, Laws.EncodeLegal.deobf, Laws.EncodeLegal.parse,
    Laws.EncodeLegal.buildHdr, Laws.EncodeLegal.buildAck, Laws.EncodeLegal.pingEcho]

theorem Cmd32.wellFormed_iff (f : Cmd32) : f.wellFormed = true ↔
    f.res = 0#23 ∧ f.op ∈ opcodes ∧ (f.c = false ∨ f.op ∈ continueOpcodes) := by
  simp [Cmd32.wellFormed, and_assoc]

/-- The legal fields are those of the commands (30_encoding.md R90). -/
theorem exists_fields_eq_iff (f : Cmd32) : (∃ i : Instr, f = i.fields) ↔ f.wellFormed = true := by
  refine ⟨fun ⟨i, h⟩ => h ▸ fields_wellFormed i, fun h => ?_⟩
  obtain ⟨hRes, hOp, hC⟩ := f.wellFormed_iff.mp h
  obtain ⟨i, -, hFields⟩ := opInstr_of_mem hOp f.c
  refine ⟨i, ?_⟩
  have hKeep : (f.c && continueOpcodes.contains f.op) = f.c := by
    rcases hC with hC | hC <;> simp [hC]
  rw [hFields, hKeep, ← hRes]

/-! ### The decoder -/

theorem Cmd32.decode_fields (i : Instr) : i.fields.decode = .command i := by
  cases i with
  | crc c | crcAppend c | crcVerify c => cases c <;> rfl
  | _ => rfl

/-- The checks a command passes: RES, then OP, then C (30_encoding.md R90). -/
theorem Cmd32.fields_of_decode {f : Cmd32} {i : Instr} (h : f.decode = .command i) : f = i.fields := by
  obtain ⟨op, c, res⟩ := f
  simp only [Cmd32.decode, decodeOp] at h
  split at h
  · next hRes =>
    split at h
    · contradiction
    · next j hj =>
      split_ifs at h with hC
      obtain rfl := Decoded.command.inj h
      have hKeep : (c && continueOpcodes.contains op) = c := by
        cases c <;> simp_all
      rw [fields_of_opInstr hj, hKeep, hRes]
  · contradiction

/-- The decoder reads a command from a word exactly when the word's fields are the command's. -/
theorem decode_eq_command_iff (w : Word) (i : Instr) : decode w = .command i ↔ Cmd32.ofWord w = i.fields :=
  ⟨Cmd32.fields_of_decode, fun h => (congrArg Cmd32.decode h).trans (Cmd32.decode_fields i)⟩

theorem exists_decode_eq_command_iff (w : Word) :
    (∃ i, decode w = .command i) ↔ (Cmd32.ofWord w).wellFormed = true := by
  simp only [decode_eq_command_iff, exists_fields_eq_iff]

/-- Decoding is total: what is no command is illegal (30_encoding.md R90). -/
theorem decode_illegal {w : Word} (h : ∀ i, decode w ≠ .command i) : ∃ why, decode w = .illegal why := by
  cases hd : decode w with
  | command i => exact absurd hd (h i)
  | illegal why => exact ⟨why, rfl⟩

theorem decode_encode (i : Instr) : decode (encode i) = .command i :=
  (decode_eq_command_iff _ i).mpr ((eq_encode_iff _ i).mp rfl)

/-- Settles O2: both say that the word's fields are the command's. -/
theorem decodeAndEncodeAgree : Obligations.DecodeAndEncodeAgree := fun i _ =>
  ⟨decode_encode i, fun w h => (eq_encode_iff w i).mpr ((decode_eq_command_iff w i).mp h)⟩

/-- Settles O1: the legal words are those whose fields are some command's. -/
theorem decodeIsTotalByTheOpcodeMap : Obligations.DecodeIsTotalByTheOpcodeMap := by
  refine fun w => ⟨?legal, fun i h => ?fields, decode_illegal⟩
  case legal => rw [exists_decode_eq_command_iff]; exact Cmd32.wellFormed_iff _
  case fields =>
    rw [← (decode_eq_command_iff w i).mp h]
    exact ⟨rfl, rfl⟩

/-- Settles O3: each word's three fields are compared with the map. -/
theorem wordsOfTheOpcodeMapDecode : Obligations.WordsOfTheOpcodeMapDecode := by
  unfold Obligations.WordsOfTheOpcodeMapDecode
  decide

end Sys2Proof
end

section
/-! SUPPORT. What each command may write (30_encoding.md R86) and how every command ends (45_control.md R192). -/

namespace Sys2Proof.Machine

/-- The out column of 30_encoding.md R86: `s` with the results command `i` may write taken from `t`. -/
def withResults (i : Instr) (s t : State) : State :=
  match i with
  | .nop => s
  | .crc _ => { s with crcResult := t.crcResult }
  | .crcAppend _ => { s with dmem := t.dmem, crcResult := t.crcResult }
  | .crcVerify _ => { s with crcMatch := t.crcMatch, crcResult := t.crcResult }
  | .decodeHdr =>
    { s with
      hdrTid := t.hdrTid, hdrProto := t.hdrProto, hdrLen := t.hdrLen, hdrUnit := t.hdrUnit, hdrMsgid := t.hdrMsgid
      bodyNeed := t.bodyNeed, bodyComplete := t.bodyComplete }
  | .classify => { s with kind := t.kind }
  | .deobf => { s with dmem := t.dmem }
  | .parse => { s with recs := t.recs }
  | .buildHdr => { s with dmem := t.dmem, outLen := t.outLen }
  | .buildAck => { s with dmem := t.dmem, crcResult := t.crcResult, outLen := t.outLen }
  | .pingEcho => { s with dmem := t.dmem, outLen := t.outLen }

/-- A command writes its results, ERRCODE and STATUS, uses up draws, and changes nothing else. -/
theorem exec_eq_withResults {i : Instr} {s t : State} (h : exec i s = .next t) :
    t = { withResults i s t with
      pending := none, done := true, err := t.err, errcode := t.errcode, draws := t.draws } := by
  cases i with
  | nop => rw [execNop_cases h]; rfl
  | crc c => rcases execCrc_cases h with ⟨-, rfl⟩ | ⟨-, rfl⟩ <;> rfl
  | crcAppend c => rcases execCrcAppend_cases h with ⟨-, rfl⟩ | ⟨-, rfl⟩ <;> rfl
  | crcVerify c => rcases execCrcVerify_cases h with ⟨-, rfl⟩ | ⟨-, rfl⟩ <;> rfl
  | decodeHdr =>
    rcases execDecodeHdr_cases h with ⟨-, -, -, rfl⟩ | ⟨-, rfl⟩ | ⟨-, rfl⟩ | ⟨-, -, -, rfl⟩ <;> rfl
  | classify => rcases execClassify_cases h with ⟨-, rfl⟩ | ⟨-, rfl⟩ <;> rfl
  | deobf =>
    rcases execDeobf_cases h with ⟨-, -, -, -, -, rfl⟩ | ⟨-, rfl⟩ | ⟨-, rfl⟩ | ⟨-, -, rfl⟩ <;> rfl
  | parse => rcases execParse_cases h with ⟨-, -, -, -, rfl⟩ | ⟨-, rfl⟩ | ⟨-, rfl⟩ | ⟨-, rfl⟩ <;> rfl
  | buildHdr => rcases execBuildHdr_cases h with ⟨-, rfl⟩ | ⟨-, rfl⟩ <;> rfl
  | buildAck => rcases execBuildAck_cases h with ⟨-, -, -, rfl⟩ | ⟨-, rfl⟩ | ⟨-, rfl⟩ <;> rfl
  | pingEcho =>
    rcases execPingEcho_cases h with ⟨-, -, -, -, rfl⟩ | ⟨-, rfl⟩ | ⟨-, rfl⟩ | ⟨-, rfl⟩ <;> rfl

/-- Every command completes (45_control.md R192). -/
theorem exec_next (i : Instr) (s : State) : ∃ t, exec i s = .next t :=
  let ⟨_, h⟩ := exec_complete i s
  ⟨_, h⟩

theorem exec_pending {i : Instr} {s t : State} (h : exec i s = .next t) : t.pending = none :=
  congrArg State.pending (exec_eq_withResults h)

theorem exec_done {i : Instr} {s t : State} (h : exec i s = .next t) : t.done = true :=
  congrArg State.done (exec_eq_withResults h)

/-- Settles O12: none of these fields is a result of any command. -/
theorem commandsLeaveOperandsAlone : Obligations.CommandsLeaveOperandsAlone := by
  intro i s t h
  rw [exec_eq_withResults h]
  cases i <;>
    exact ⟨⟨rfl, rfl, rfl, rfl⟩, ⟨rfl, rfl, rfl, rfl⟩, ⟨rfl, rfl⟩, ⟨rfl, rfl, rfl⟩, ⟨rfl, rfl, rfl, rfl⟩⟩

/-- Settles O13: a command that is not named for a result does not have it among its own. -/
theorem onlyTheNamedCommandsWriteAResult : Obligations.OnlyTheNamedCommandsWriteAResult := by
  intro i s t h
  rw [exec_eq_withResults h]
  refine ⟨fun hi => ?header, fun hi => ?crcMatch, fun hi => ?kind, fun hi => ?recs, fun hHdr hAck hEcho => ?outLen,
    fun hCrc hAppend hVerify hAck => ?crcResult, fun hAppend hDeobf hHdr hAck hEcho => ?dmem⟩
  case header =>
    cases i with
    | decodeHdr => contradiction
    | _ => exact ⟨rfl, rfl, rfl, rfl, rfl, rfl, rfl⟩
  case crcMatch =>
    cases i with
    | crcVerify c => exact absurd rfl (hi c)
    | _ => rfl
  case kind =>
    cases i with
    | classify => contradiction
    | _ => rfl
  case recs =>
    cases i with
    | parse => contradiction
    | _ => rfl
  case outLen =>
    cases i with
    | buildHdr | buildAck | pingEcho => contradiction
    | _ => rfl
  case crcResult =>
    cases i with
    | crc c => exact absurd rfl (hCrc c)
    | crcAppend c => exact absurd rfl (hAppend c)
    | crcVerify c => exact absurd rfl (hVerify c)
    | buildAck => contradiction
    | _ => rfl
  case dmem =>
    cases i with
    | crcAppend c => exact absurd rfl (hAppend c)
    | deobf | buildHdr | buildAck | pingEcho => contradiction
    | _ => rfl

end Sys2Proof.Machine
end

section
/-! SUPPORT. The Engine's step on a pending word, and the Host's steps through a register write, a polling loop and `run`
(30_encoding.md R92, 45_control.md R190 to R192). -/

namespace Sys2Proof.Machine

/-! ### The Engine's step -/

/-- With no turn laid down, a pending word is run next (45_control.md R191; assumption log 1). -/
theorem step_eq_runWord {s : State} {w : Word} (hInit : s.initDone = true) (hPending : s.pending = some w)
    (hTainted : s.tainted = false) (hTurns : s.turns = []) : step s = runWord w s := by
  simp [step, advance, hTurns, engineEnabled, engineStep, State.busy, hInit, hPending, hTainted]

theorem runWord_command {w : Word} {i : Instr} (h : decode w = .command i) (s : State) : runWord w s = exec i s := by
  simp only [runWord, h]

theorem runWord_illegal {w : Word} {why : Illegal} (h : decode w = .illegal why) (s : State) :
    runWord w s = .next (raiseError .badOpcode s) := by
  simp only [runWord, h, execIllegal, finish_eq, complete_error]

/-- Settles O4: such a word is no command's, so it is illegal and ends with BAD_OPCODE. -/
theorem illegalWordEndsWithBadOpcode : Obligations.IllegalWordEndsWithBadOpcode := by
  intro s w hInit hPending hTainted hTurns hWord
  have hNone : ∀ i, decode w ≠ .command i := by
    intro i hi
    obtain ⟨hRes, hOp, hC⟩ := (Cmd32.wellFormed_iff _).mp ((exists_decode_eq_command_iff w).mp ⟨i, hi⟩)
    rcases hWord with hRes' | hOp' | ⟨hSet, hC'⟩
    · exact hRes' hRes
    · exact hOp' hOp
    · rcases hC with hClear | hC
      · exact absurd (hSet.symm.trans hClear) (by decide)
      · exact hC' hC
  obtain ⟨why, hIllegal⟩ := decode_illegal hNone
  calc step s
      = runWord w s := step_eq_runWord hInit hPending hTainted hTurns
    _ = .next (raiseError .badOpcode s) := runWord_illegal hIllegal s

/-! ### The Host's steps through `run` -/

theorem run_succ {s t : State} (h : step s = .next t) (k : Nat) : Host.Core.run core (k + 1) s = Host.Core.run core k t := by
  have hCore : core.step s = .next t := h
  simp only [Host.Core.run, hCore]

/-- While idle, the Host's write to CMD issues the word (45_control.md R190). -/
theorem hostStep_cmd {s : State} {w : Word} (hs : s.busy = false) (h : s.hostProg[s.hostPc]? = some (wrOp .cmd w)) :
    hostStep s = { issue w s with hostPc := s.hostPc + 1 } := by
  have hWrite : hostAccess (writeAccess .cmd w) s = issue w s := by
    simp [hostAccess_writeAccess, hostWriteReg, regAccess, hs, writeReg]
  rw [hostStep_bus h]
  exact congrArg (fun t => { t with hostPc := s.hostPc + 1 }) hWrite

/-- The Host has read STATUS and stands behind the read. -/
abbrev afterStatusRead (s : State) : State :=
  { s with hostPc := s.hostPc + 1, readData := statusWord s, draws := s.draws + 1 }

/-- A Host's read of STATUS returns it at all times (10_state.md R53). -/
theorem hostStep_readStatus {s : State} (h : s.hostProg[s.hostPc]? = some (rdOp .status)) :
    hostStep s = afterStatusRead s := by
  have hRead : hostAccess (readAccess .status) s = returnRead (statusWord s) s := by
    simp [hostAccess_readAccess, hostReadReg, readReg]
  rw [hostStep_bus h]
  exact congrArg (fun t => { t with hostPc := s.hostPc + 1 }) hRead

/-- A branch whose bit has the other value falls through (30_encoding.md R92). -/
theorem hostStep_branch_falls_through {s : State} {bit target : Nat} {on : Bool}
    (h : s.hostProg[s.hostPc]? = some (.branchIf bit on target)) (hBit : s.readData.getLsbD bit ≠ on) :
    hostStep s = { s with hostPc := s.hostPc + 1 } := by
  rw [hostStep_of_triple_none h rfl, HostOp.nextPc, if_neg hBit]

/-- A polling loop whose bit is set ends with its first read (30_encoding.md R92). -/
theorem run_poll {s : State} {b : Nat} (hInit : s.initDone = true) (hs : s.busy = false) (hTurns : s.turns = [])
    (hRead : s.hostProg[s.hostPc]? = some (rdOp .status))
    (hBranch : s.hostProg[s.hostPc + 1]? = some (.branchIf b false s.hostPc)) (hBit : (statusWord s).getLsbD b = true)
    (k : Nat) : Host.Core.run core (k + 2) s =
      Host.Core.run core k { afterStatusRead s with hostPc := s.hostPc + 2 } := by
  have hFirst : step s = .next (afterStatusRead s) :=
    (step_eq_hostStep hInit hs hTurns).trans (congrArg Host.Outcome.next (hostStep_readStatus hRead))
  have hSecond : step (afterStatusRead s) = .next { afterStatusRead s with hostPc := s.hostPc + 2 } :=
    (step_eq_hostStep (s := afterStatusRead s) hInit hs hTurns).trans
      (congrArg Host.Outcome.next (hostStep_branch_falls_through hBranch (by simp [hBit])))
  rw [run_succ hFirst (k + 1), run_succ hSecond k]

/-- Settles O16: the CMD write issues the word, the Engine runs it, STATUS reads with DONE = 1, and the branch falls
through. -/
theorem runPassesItsWait : Obligations.RunPassesItsWait := by
  intro s i labels hInit hs hTainted hTurns hProg
  obtain ⟨t, hExec⟩ := exec_next i { issue (encode i) s with hostPc := s.hostPc + 1 }
  refine ⟨t, hExec, ?_⟩
  obtain ⟨-, -, ⟨-, hInit'⟩, -, ⟨hProg', hPc', -, hTurns'⟩⟩ := commandsLeaveOperandsAlone i _ t hExec
  have hIssue : step s = .next { issue (encode i) s with hostPc := s.hostPc + 1 } :=
    (step_eq_hostStep hInit hs hTurns).trans (congrArg Host.Outcome.next (hostStep_cmd hs (hProg 0 _ rfl)))
  have hRun : step { issue (encode i) s with hostPc := s.hostPc + 1 } = .next t :=
    calc step { issue (encode i) s with hostPc := s.hostPc + 1 }
        = runWord (encode i) _ := step_eq_runWord hInit rfl hTainted hTurns
      _ = exec i _ := runWord_command (decode_encode i) _
      _ = .next t := hExec
  have hDone : (statusWord t).getLsbD 2 = true := (getLsbD_statusWord t 2).trans (exec_done hExec)
  have hIdle : t.busy = false := congrArg Option.isSome (exec_pending hExec)
  have hRead : t.hostProg[t.hostPc]? = some (rdOp .status) := by rw [hProg', hPc']; exact hProg 1 _ rfl
  have hBranch : t.hostProg[t.hostPc + 1]? = some (.branchIf 2 false t.hostPc) := by
    rw [hProg', hPc']; exact hProg 2 _ rfl
  rw [run_succ hIssue 3, run_succ hRun 2, run_poll (hInit'.trans hInit) hIdle (hTurns'.trans hTurns) hRead hBranch hDone 0,
    hPc']
  rfl

end Sys2Proof.Machine
end

section
/-! SUPPORT. The expansions of the Host assembly as bus accesses, and the accesses of a polling loop (30_encoding.md R91 to
R93). -/

namespace Sys2Proof.Machine

/-! ### Expansions -/

/-- The byte `a` of the window's DMEM part stands at 0x1000 + a (20_memory.md R61). -/
theorem dmemOffset_eq (a : BitVec 12) : 1#1 ++ a = BitVec.ofNat 13 (0x1000 + a.toNat) := by
  apply BitVec.eq_of_toNat_eq
  have ha := a.isLt
  calc (1#1 ++ a).toNat
      = (1#1).toNat <<< 12 ||| a.toNat := BitVec.toNat_append _ _
    _ = 0x1000 + a.toNat := (Nat.two_pow_add_eq_or_of_lt ha 1).symm
    _ = (BitVec.ofNat 13 (0x1000 + a.toNat)).toNat := by rw [BitVec.toNat_ofNat]; omega

theorem wbOp_eq (a : BitVec 12) (v : Byte) : wbOp a v = .bus (writeByteAccess a.toNat (v.setWidth 32)) := by
  simp only [wbOp, dmemOffset_eq]

theorem rbOp_eq (a : BitVec 12) : rbOp a = .bus (readByteAccess a.toNat) := by
  simp only [rbOp, dmemOffset_eq]

/-- The bytes of `wbs` go to rising addresses, none past the last of the 12-bit addresses (30_encoding.md R92). -/
theorem wbsOps_eq (a : BitVec 12) (bs : List Byte) (h : a.toNat + bs.length ≤ 4096) :
    wbsOps a bs = (bs.zipIdx a.toNat).map fun (b, x) => .bus (writeByteAccess x (b.setWidth 32)) := by
  induction bs generalizing a with
  | nil => rfl
  | cons v vs ih =>
    rw [List.length_cons] at h
    rw [wbsOps, wbOp_eq, List.zipIdx_cons, List.map_cons]
    congr 1
    cases vs with
    | nil => rfl
    | cons v' vs' =>
      rw [List.length_cons] at h
      have hNext : (a + 1#12).toNat = a.toNat + 1 := by
        rw [BitVec.toNat_add, BitVec.toNat_ofNat]
        omega
      rw [← hNext]
      exact ih (a + 1#12) (by rw [hNext, List.length_cons]; omega)

theorem setOp_eq (r : RegName) (v : Option Word) : setOp r v = v.toList.map fun v => .bus (writeAccess r v) := by
  cases v <;> rfl

/-! ### The accesses of a polling loop -/

/-- One turn of a polling loop: the read, and the branch back while the bit of the value read is clear. -/
theorem accessesFrom_pollTurn {prog : List HostOp} {pos b : Nat} (hRead : prog[pos]? = some (rdOp .status))
    (hBranch : prog[pos + 1]? = some (.branchIf b false pos)) (fuel : Nat) (last v : Word) (rest : List Word) :
    accessesFrom prog (fuel + 2) pos last (v :: rest) =
      readAccess .status :: accessesFrom prog fuel (if v.getLsbD b = false then pos else pos + 2) v rest :=
  (accessesFrom_bus hRead (fuel + 1) last (v :: rest)).trans
    (congrArg (readAccess .status :: ·) (accessesFrom_move hBranch rfl fuel v rest))

/-- A polling loop gives a read of STATUS for every value with its bit clear and one for the value with the bit set, and then
goes on behind the loop (30_encoding.md R93). -/
theorem accessesFrom_poll {prog : List HostOp} {pos b : Nat} (hRead : prog[pos]? = some (rdOp .status))
    (hBranch : prog[pos + 1]? = some (.branchIf b false pos)) {early : List Word} (hEarly : ∀ u ∈ early, u.getLsbD b = false)
    {v : Word} (hv : v.getLsbD b = true) (fuel : Nat) (last : Word) (rest : List Word) :
    accessesFrom prog (fuel + 2 * (early.length + 1)) pos last (early ++ v :: rest) =
      List.replicate (early.length + 1) (readAccess .status) ++ accessesFrom prog fuel (pos + 2) v rest := by
  induction early generalizing last with
  | nil =>
    refine (accessesFrom_pollTurn hRead hBranch fuel last v rest).trans ?_
    rw [if_neg (by simp [hv])]
    rfl
  | cons u early ih =>
    obtain ⟨hu, hEarly⟩ := List.forall_mem_cons.mp hEarly
    refine (accessesFrom_pollTurn hRead hBranch (fuel + 2 * (early.length + 1)) last u (early ++ v :: rest)).trans ?_
    rw [if_pos hu, ih hEarly]
    rfl

/-- The accesses of `run`: the CMD write, then the reads of its `wait` (30_encoding.md R93). -/
theorem encodeProgram_run (i : Instr) {early : List Word} {last : Word} (hEarly : ∀ u ∈ early, u.getLsbD 2 = false)
    (hLast : last.getLsbD 2 = true) (fuel : Nat) :
    encodeProgram [.run i] (fuel + 2 * (early.length + 1) + 1) (early ++ [last]) =
      writeAccess .cmd (encode i) :: List.replicate (early.length + 1) (readAccess .status) := by
  have hEnd : accessesFrom (assemble [.run i]) fuel 3 last [] = [] := by cases fuel <;> rfl
  have hPoll := accessesFrom_poll (prog := assemble [.run i]) (pos := 1) rfl rfl hEarly hLast fuel 0#32 []
  rw [hEnd, List.append_nil] at hPoll
  rw [encodeProgram, accessesFrom_bus (acc := writeAccess .cmd (encode i)) rfl]
  exact congrArg _ hPoll

/-- Settles O53: each expansion is the list of its accesses and branches, and `run` is encoded as `encodeProgram_run` says. -/
theorem pseudoInstructionsExpand : Obligations.PseudoInstructionsExpand := by
  refine ⟨fun labels pos r v a b bit l => ⟨rfl, rfl, ?wb, ?rb, rfl, rfl, rfl, rfl, rfl⟩,
    fun labels pos a bs h => ?wbs, fun labels pos a n d => ?set, fun i labels pos => ⟨rfl, rfl, rfl, rfl⟩,
    fun i early last fuel hEarly hLast hFuel => ?run⟩
  case wb => rw [expandStmt, wbOp_eq]
  case rb => rw [expandStmt, rbOp_eq]
  case wbs =>
    rw [expandStmt, wbsOps_eq a bs h, List.zipIdx_eq_map_add, List.map_map]
    simp [Function.comp_def, Nat.add_comm]
  case set => simp only [expandStmt, setOp_eq]; rfl
  case run =>
    obtain ⟨k, rfl⟩ := Nat.exists_eq_add_of_le' hFuel
    exact encodeProgram_run i hEarly hLast k

end Sys2Proof.Machine
end

section
/-! SUPPORT. Ranges of DMEM as byte sequences (00_scope.md R9): a run of stored bytes stands where it was stored, and reading a
written range gives its bytes at every draw (10_state.md R51). -/

namespace Sys2Proof.Machine

/-! ### Storing a run of bytes -/

theorem holdsBytes_storeBytes (m : Memory) (a : Nat) (bs : List Byte) : holdsBytes (m.storeBytes a bs) a bs := by
  intro i hi
  rw [lookup_storeBytes, if_pos (by omega), Nat.add_sub_cancel_left]

theorem sameOutside_storeBytes (m : Memory) (a : Nat) (bs : List Byte) :
    sameOutside m (m.storeBytes a bs) a bs.length := by
  intro x hx
  rw [lookup_storeBytes, if_neg hx]

/-! ### Reading a range -/

/-- Two reads that agree byte by byte give the same sequence. -/
theorem readBytes_congr {m m' : Memory} {d d' : Draw} {a n : Nat}
    (h : ∀ i < n, m'.readByte d' (a + i) = m.readByte d (a + i)) : m'.readBytes d' a n = m.readBytes d a n :=
  List.map_congr_left fun i hi => h i (List.mem_range.mp hi)

/-- A range read as a whole is its first part, then its second. -/
theorem readBytes_add (m : Memory) (d : Draw) (a n k : Nat) :
    m.readBytes d a (n + k) = m.readBytes d a n ++ m.readBytes d (a + n) k := by
  simp [Memory.readBytes, List.range_add, Nat.add_assoc]

theorem readBytes_two (m : Memory) (d : Draw) (a : Nat) :
    m.readBytes d a 2 = [m.readByte d a, m.readByte d (a + 1)] := rfl

/-- A written range reads the same in every memory that lists the same bytes there, at every draw (10_state.md R51). -/
theorem readBytes_of_lookup_eq {m m' : Memory} {a n : Nat} (hWritten : rangeWritten m a n)
    (hSame : ∀ i < n, m'.lookup (a + i) = m.lookup (a + i)) (d d' : Draw) :
    m'.readBytes d' a n = m.readBytes d a n := by
  refine readBytes_congr fun i hi => ?_
  obtain ⟨b, hb⟩ := Option.isSome_iff_exists.mp (hWritten i hi)
  rw [readByte_of_lookup hb, readByte_of_lookup ((hSame i hi).trans hb)]

theorem readBytes_of_holdsBytes {m : Memory} {a n : Nat} {bs : List Byte} (h : holdsBytes m a bs) (hn : bs.length = n)
    (d : Draw) : m.readBytes d a n = bs := by
  subst hn
  refine List.ext_getElem (by simp) fun i hi hi' => ?_
  rw [readBytes_getElem]
  exact readByte_of_lookup ((h i hi').trans (List.getElem?_eq_getElem hi')) d

/-- Another value stored over one byte of a sequence shows when the range is read again. -/
theorem readBytes_store_ne {m : Memory} {a n x : Nat} {bs : List Byte} {v : Byte} (h : holdsBytes m a bs)
    (hn : bs.length = n) (hLow : a ≤ x) (hHigh : x < a + n) (hv : m.lookup x ≠ some v) (d : Draw) :
    (m.store x v).readBytes d a n ≠ bs := by
  subst hn
  obtain ⟨i, rfl⟩ := Nat.exists_eq_add_of_le hLow
  intro hSame
  have hi : i < ((m.store (a + i) v).readBytes d a bs.length).length := by rw [readBytes_length]; omega
  have hByte : bs[i]? = some v :=
    calc bs[i]?
        = ((m.store (a + i) v).readBytes d a bs.length)[i]? := by rw [hSame]
      _ = some ((m.store (a + i) v).readByte d (a + i)) := by rw [List.getElem?_eq_getElem hi, readBytes_getElem]
      _ = some v := by rw [readByte_store_same]
  exact hv ((h i (by omega)).trans hByte)

end Sys2Proof.Machine
end

section
/-! SUPPORT. The shift loop and the table built from it (40_checksum.md R100, R101): the loop is linear over XOR, so a table
lookup on the low byte does eight turns at once. -/

namespace Sys2Proof.Machine

/-! ### The loop on natural numbers -/

/-- One turn of the loop on natural numbers (40_checksum.md R100, 93_implementation_defined.md G1). -/
def shiftNat (c : Nat) : Nat := if c % 2 = 1 then (c / 2) ^^^ 0xA001 else c / 2

theorem toNat_crcShift (c : Half) : (crcShift c).toNat = shiftNat c.toNat := by
  have hBit : c.getLsbD 0 = true ↔ c.toNat % 2 = 1 := by simp [BitVec.getLsbD, Nat.testBit_zero]
  have hHalf : (c >>> 1).toNat = c.toNat / 2 := by rw [BitVec.toNat_ushiftRight, Nat.shiftRight_one]
  unfold crcShift shiftNat
  by_cases hOdd : c.toNat % 2 = 1
  · rw [if_pos (hBit.mpr hOdd), if_pos hOdd, BitVec.toNat_xor, hHalf]
    rfl
  · rw [if_neg (mt hBit.mp hOdd), if_neg hOdd, hHalf]

theorem toNat_crcShifts (k : Nat) (c : Half) : (crcShifts k c).toNat = shiftNat^[k] c.toNat := by
  induction k generalizing c with
  | zero => rfl
  | succ k ih => rw [crcShifts, ih, toNat_crcShift, Function.iterate_succ_apply]

theorem crcTable_getElem {i : Nat} (h : i < 256) : crcTable[i] = crcShifts 8 (BitVec.ofNat 16 i) :=
  tabulate_getElem 256 _ i h

/-- Settles O22: the table holds eight turns of `crcShift` from the entry's number, which are those of `shiftNat`. -/
theorem tableEntriesFollowTheShiftLoop : Obligations.TableEntriesFollowTheShiftLoop := by
  intro v
  have hEntry : (BitVec.ofNat 16 v.val).toNat = v.val := by
    rw [BitVec.toNat_ofNat]
    omega
  calc crcTable[v].toNat
      = (crcShifts 8 (BitVec.ofNat 16 v.val)).toNat := congrArg BitVec.toNat (crcTable_getElem v.isLt)
    _ = shiftNat^[8] v.val := by rw [toNat_crcShifts, hEntry]

/-! ### A table lookup is eight turns -/

/-- A turn is linear: bit 0 of a XOR is the XOR of the bits 0, and the polynomial cancels where both are 1. -/
theorem crcShift_xor (x y : Half) : crcShift (x ^^^ y) = crcShift x ^^^ crcShift y := by
  simp only [crcShift, BitVec.getLsbD_xor, BitVec.ushiftRight_xor_distrib]
  cases x.getLsbD 0 <;> cases y.getLsbD 0
  · simp
  · simp [BitVec.xor_assoc]
  · simp [BitVec.xor_assoc, BitVec.xor_comm Config.crcPoly]
  · simp [BitVec.xor_assoc, BitVec.xor_comm Config.crcPoly]

theorem crcShifts_xor (k : Nat) (x y : Half) : crcShifts k (x ^^^ y) = crcShifts k x ^^^ crcShifts k y := by
  induction k generalizing x y with
  | zero => rfl
  | succ k ih => simp only [crcShifts, crcShift_xor, ih]

/-- Bits that are 0 leave the loop a plain shift. -/
theorem crcShifts_of_low_zero {k : Nat} {c : Half} (h : ∀ i < k, c.getLsbD i = false) : crcShifts k c = c >>> k := by
  induction k generalizing c with
  | zero => simp [crcShifts]
  | succ k ih =>
    have hTurn : crcShift c = c >>> 1 := by
      rw [crcShift, h 0 (Nat.succ_pos k), if_neg Bool.false_ne_true]
    have hLow : ∀ i < k, (c >>> 1).getLsbD i = false := fun i hi => by
      rw [BitVec.getLsbD_ushiftRight]
      exact h (1 + i) (by omega)
    rw [crcShifts, hTurn, ih hLow, ← BitVec.shiftRight_add, Nat.add_comm]

/-- The low byte of a 16-bit value, zero-extended. -/
abbrev lowByte (x : Half) : Half := (x.setWidth 8).setWidth 16

/-- With its low byte cleared, eight turns of a value are its high byte. -/
theorem crcShifts_xor_lowByte (x : Half) : crcShifts 8 (x ^^^ lowByte x) = x >>> 8 := by
  rw [crcShifts_of_low_zero fun i hi => ?clear]
  case clear => simp [hi, Nat.lt_trans hi (by decide : 8 < 16)]
  apply BitVec.eq_of_getLsbD_eq
  intro i hi
  simp

/-- A byte XORed into the accumulator does not reach the accumulator's high byte. -/
theorem xor_byte_ushiftRight (acc : Half) (b : Byte) : (acc ^^^ b.setWidth 16) >>> 8 = acc >>> 8 := by
  apply BitVec.eq_of_getLsbD_eq
  intro i hi
  simp

/-- One byte over the table is eight turns of the loop (40_checksum.md R101, 93_implementation_defined.md G2). -/
theorem crcByte_crcTable (acc : Half) (b : Byte) : crcByte crcTable acc b = crcShifts 8 (acc ^^^ b.setWidth 16) := by
  let x := acc ^^^ b.setWidth 16
  have hEntry : BitVec.ofNat 16 (x.setWidth 8).toNat = lowByte x := by
    rw [BitVec.ofNat_toNat]
  calc crcByte crcTable acc b
      = acc >>> 8 ^^^ crcShifts 8 (lowByte x) := by
        rw [crcByte, crcTable_getElem (BitVec.isLt _), hEntry]
    _ = crcShifts 8 (x ^^^ lowByte x) ^^^ crcShifts 8 (lowByte x) := by
        rw [crcShifts_xor_lowByte, xor_byte_ushiftRight]
    _ = crcShifts 8 x := by
        rw [← crcShifts_xor, BitVec.xor_assoc, BitVec.xor_self, BitVec.xor_zero]

/-- Settles O23: both take the bytes in order, and each byte by `crcByte_crcTable`. -/
theorem tableChecksumIsBitSerial : Obligations.TableChecksumIsBitSerial := by
  intro seed bs
  have hByte : crcByte crcTable = fun acc b => crcShifts 8 (acc ^^^ b.setWidth 16) :=
    funext fun acc => funext fun b => crcByte_crcTable acc b
  rw [crc16, hByte]

end Sys2Proof.Machine
end

section
/-! SUPPORT. The three checksum commands (40_checksum.md R103 to R106): how each ends with and without room for its range, what
the checksum of a range depends on, and how the commands work together. -/

namespace Sys2Proof.Machine

/-! ### How the commands end -/

theorem finish_require_true {s : State} {ok : Bool} {e : ErrCode} {r : Staged} (h : ok = true) :
    finish s (require ok e r) = .next (complete s r) := by
  rw [h, require_true, finish_eq]

theorem finish_require_false {s : State} {ok : Bool} {e : ErrCode} {r : Staged} (h : ok = false) :
    finish s (require ok e r) = .next (raiseError e s) := by
  rw [h, require_false, finish_eq, complete_error]

/-- CRC over a range inside DMEM (40_checksum.md R103). -/
theorem exec_crc_inside {s : State} (c : Bool) (h : s.srcAddr + s.srcLen ≤ 2048) :
    exec (.crc c) s = .next (completeOk { s with crcResult := rangeCrc c s, draws := s.draws + 1 }) :=
  finish_require_true ((inRange_iff _ _).mpr h)

/-- CRC_APPEND with room for two bytes behind the range (40_checksum.md R104). -/
theorem exec_crcAppend_inside {s : State} (c : Bool) (h : s.srcAddr + (s.srcLen + 2) ≤ 2048) :
    exec (.crcAppend c) s = .next (completeOk { s with
      dmem := s.dmem.storeBytes (s.srcAddr + s.srcLen) (crcBytes s.crcOrder (rangeCrc c s))
      crcResult := rangeCrc c s
      draws := s.draws + 1 }) :=
  finish_require_true ((inRange_iff _ _).mpr h)

/-- CRC_VERIFY with two bytes behind the range inside DMEM (40_checksum.md R105). -/
theorem exec_crcVerify_inside {s : State} (c : Bool) (h : s.srcAddr + (s.srcLen + 2) ≤ 2048) :
    exec (.crcVerify c) s = .next (completeOk { s with
      crcMatch := crcMatchFlag (memRead s 1 (s.srcAddr + s.srcLen) 2) (crcBytes s.crcOrder (rangeCrc c s))
      crcResult := rangeCrc c s
      draws := s.draws + 2 }) :=
  finish_require_true ((inRange_iff _ _).mpr h)

/-! ### The two bytes of a checksum -/

/-- `crcBytes` as its first and its second byte (40_checksum.md R102). -/
theorem crcBytes_eq (order : Bool) (v : Half) :
    crcBytes order v = [if order then loByte v else hiByte v, if order then hiByte v else loByte v] := by
  cases order <;> rfl

theorem crcMatchFlag_iff (found expected : List Byte) : crcMatchFlag found expected = true ↔ found = expected :=
  beq_iff_eq

theorem crcMatchFlag_false_iff (found expected : List Byte) : crcMatchFlag found expected = false ↔ found ≠ expected :=
  beq_eq_false_iff_ne

/-! ### What a checksum depends on -/

theorem crc16_append (t : Vector Half 256) (seed : Half) (bs bs' : List Byte) :
    crc16 t seed (bs ++ bs') = crc16 t (crc16 t seed bs) bs' :=
  List.foldl_append

/-- Over written bytes the checksum involves no free choice (40_checksum.md R106). -/
theorem rangeCrc_of_holdsBytes {s : State} {bs : List Byte} (c : Bool) (hLen : bs.length = s.srcLen)
    (h : holdsBytes s.dmem s.srcAddr bs) : rangeCrc c s = crc16 s.tbl (crcSeed c s) bs := by
  rw [rangeCrc, memRead, readBytes_of_holdsBytes h hLen]

/-- Nor does it change over a written range whose bytes are the same in another state (40_checksum.md R106). -/
theorem rangeCrc_of_lookup_eq {s t : State} (hAddr : t.srcAddr = s.srcAddr) (hLen : t.srcLen = s.srcLen)
    (hTbl : t.tbl = s.tbl) (hWritten : rangeWritten s.dmem s.srcAddr s.srcLen)
    (hSame : ∀ i < s.srcLen, t.dmem.lookup (s.srcAddr + i) = s.dmem.lookup (s.srcAddr + i)) :
    rangeCrc false s = rangeCrc false t := by
  rw [rangeCrc, rangeCrc, memRead, memRead, hAddr, hLen, hTbl, readBytes_of_lookup_eq hWritten hSame (s.draw 0)]
  rfl

/-! ### The settled statements -/

/-- Settles O19: the range is the command's only check. -/
theorem crcOfARange : Obligations.CrcOfARange :=
  ⟨decode_encode (.crc false), decode_encode (.crc true), fun c _ =>
    ⟨fun hIn => exec_crc_inside c hIn, fun hOut => finish_require_false ((inRange_false_iff _ _).mpr hOut)⟩⟩

/-- Settles O20: the one write to DMEM is the run of the two checksum bytes. -/
theorem crcAppendStoresTheChecksum : Obligations.CrcAppendStoresTheChecksum := by
  refine ⟨decode_encode (.crcAppend false), decode_encode (.crcAppend true), fun c s => ?_⟩
  intro a n v
  refine ⟨fun hIn => ⟨_, exec_crcAppend_inside c hIn, rfl, ?_⟩,
    fun hOut => finish_require_false ((inRange_false_iff _ _).mpr hOut)⟩
  have hBytes := holdsBytes_storeBytes s.dmem (a + n) (crcBytes s.crcOrder v)
  have hFrame := sameOutside_storeBytes s.dmem (a + n) (crcBytes s.crcOrder v)
  rw [crcBytes_eq] at hBytes hFrame
  rw [completeOk_dmem, crcBytes_eq]
  exact ⟨hBytes 0 Nat.zero_lt_two, hBytes 1 Nat.one_lt_two, hFrame⟩

/-- Settles O21: CRC_MATCH compares the two sequences of two bytes. -/
theorem crcVerifyComparesTheChecksum : Obligations.CrcVerifyComparesTheChecksum := by
  refine ⟨decode_encode (.crcVerify false), decode_encode (.crcVerify true), fun c s => ?_⟩
  intro a n v
  refine ⟨fun hIn => ⟨_, exec_crcVerify_inside c hIn, rfl, ?_⟩,
    fun hOut => finish_require_false ((inRange_false_iff _ _).mpr hOut)⟩
  calc crcMatchFlag (memRead s 1 (a + n) 2) (crcBytes s.crcOrder v) = true
      ↔ s.dmem.readBytes (s.draw 1) (a + n) 2 = crcBytes s.crcOrder v := crcMatchFlag_iff _ _
    _ ↔ _ := by
      rw [readBytes_two, crcBytes_eq]
      simp only [List.cons.injEq, and_true, State.sees, BitVec.toNat_inj]

/-- Settles O24: both ranges hold the same bytes, so both checksums are `crc16` of those. -/
theorem checksumDependsOnBytesAndSeedAlone : Obligations.ChecksumDependsOnBytesAndSeedAlone := by
  intro c s s' bs hRoom hRoom' hLen hLen' hBytes hBytes' hTbl hResult
  have hSeed : crcSeed c s = crcSeed c s' := by
    cases c with
    | false => rfl
    | true => exact hResult rfl
  have hCrc : rangeCrc c s = rangeCrc c s' := by
    rw [rangeCrc_of_holdsBytes c hLen.symm hBytes, rangeCrc_of_holdsBytes c hLen'.symm hBytes', hTbl, hSeed]
  have hIn : s.srcAddr + s.srcLen + 2 ≤ 2048 := by rwa [← hLen, ← Nat.add_assoc] at hRoom
  have hIn' : s'.srcAddr + s'.srcLen + 2 ≤ 2048 := by rwa [← hLen', ← Nat.add_assoc] at hRoom'
  exact ⟨_, _, _, _, _, _, exec_crc_inside c (Nat.le_of_add_right_le hIn), exec_crc_inside c (Nat.le_of_add_right_le hIn'),
    exec_crcAppend_inside c hIn, exec_crcAppend_inside c hIn', exec_crcVerify_inside c hIn, exec_crcVerify_inside c hIn',
    hCrc, rfl, hCrc.symm, rfl, hCrc.symm⟩

/-- Settles O25: the second CRC goes on from the first one's result, over the bytes behind the first one's range. -/
theorem checksumContinuesOverTwoRanges : Obligations.ChecksumContinuesOverTwoRanges := by
  intro c s a n m hRoom hWritten
  have hNext : (a + n).toNat = a.toNat + n.toNat := by
    rw [BitVec.toNat_add]
    omega
  have hWhole : (n + m).toNat = n.toNat + m.toNat := by
    rw [BitVec.toNat_add]
    omega
  refine ⟨_, _, _,
    exec_crc_inside (s := { s with addrA := a, lenA := n }) c (by simp only [State.srcAddr, State.srcLen]; omega),
    exec_crc_inside true (by simp only [State.srcAddr, State.srcLen]; omega),
    exec_crc_inside (s := { s with addrA := a, lenA := n + m }) c (by simp only [State.srcAddr, State.srcLen]; omega), ?_⟩
  have hSecond : rangeWritten s.dmem (a.toNat + n.toNat) m.toNat := fun i hi =>
    Nat.add_assoc a.toNat n.toNat i ▸ hWritten (n.toNat + i) (by omega)
  show crc16 s.tbl (crc16 s.tbl (crcSeed c s) (s.dmem.readBytes (s.draw 0) a.toNat n.toNat))
      (s.dmem.readBytes _ (a + n).toNat m.toNat) =
    crc16 s.tbl (crcSeed c s) (s.dmem.readBytes (s.draw 0) a.toNat (n + m).toNat)
  rw [hNext, hWhole, readBytes_add, crc16_append, readBytes_of_lookup_eq hSecond (fun _ _ => rfl) (s.draw 0)]

/-- Settles O26: what CRC_APPEND stored stands behind the range, which is as it was, so CRC_VERIFY finds the same checksum
there, and finds another once a byte of it is another. -/
theorem verifyAcceptsWhatAppendWrote : Obligations.VerifyAcceptsWhatAppendWrote := by
  intro s (hRoom : s.srcAddr + (s.srcLen + 2) ≤ 2048) (hWritten : rangeWritten s.dmem s.srcAddr s.srcLen)
  let bytes := crcBytes s.crcOrder (rangeCrc false s)
  have hStored := holdsBytes_storeBytes s.dmem (s.srcAddr + s.srcLen) bytes
  have hFrame := sameOutside_storeBytes s.dmem (s.srcAddr + s.srcLen) bytes
  rw [crcBytes_length] at hFrame
  have hSource : ∀ i < s.srcLen, (s.dmem.storeBytes (s.srcAddr + s.srcLen) bytes).lookup (s.srcAddr + i) =
      s.dmem.lookup (s.srcAddr + i) := fun i hi => hFrame _ (by omega)
  refine ⟨_, _, exec_crcAppend_inside false hRoom, exec_crcVerify_inside false hRoom, ?same,
    fun x v (hLow : s.srcAddr + s.srcLen ≤ x) (hHigh : x < s.srcAddr + s.srcLen + 2) hv =>
      ⟨_, exec_crcVerify_inside false hRoom, ?other, rfl⟩⟩
  case same =>
    refine (crcMatchFlag_iff _ _).mpr ((readBytes_of_holdsBytes hStored (crcBytes_length _ _) _).trans ?_)
    exact congrArg (crcBytes s.crcOrder) (rangeCrc_of_lookup_eq rfl rfl rfl hWritten hSource)
  case other =>
    refine (crcMatchFlag_false_iff _ _).mpr fun hFound =>
      readBytes_store_ne hStored (crcBytes_length _ _) hLow hHigh hv _ (hFound.trans ?_)
    refine Eq.symm (congrArg (crcBytes s.crcOrder) ?_)
    refine rangeCrc_of_lookup_eq rfl rfl rfl hWritten fun i hi => ?_
    exact (sameOutside_store _ x v _ (by omega)).trans (hSource i hi)

end Sys2Proof.Machine
end

section
/-! SUPPORT. DECODE_HDR (41_frame_decoder.md R120 to R122): how it ends for each outcome of its checks, the bytes its fields
come from, and how it counts what is missing. -/

namespace Sys2Proof.Machine

/-! ### How the command ends -/

/-- A check that holds leaves the end of the command to what comes after it (60_exceptions.md R202). -/
theorem finish_require_pass {s : State} {ok : Bool} {e : ErrCode} {r : Staged} (h : ok = true) :
    finish s (require ok e r) = finish s r := by
  rw [h, require_true]

/-- The header bytes DECODE_HDR reads, its one read of DMEM (41_frame_decoder.md R120). -/
def headerBytes (s : State) : List Byte := memRead s 0 s.srcAddr 8

/-- What DECODE_HDR stages once its checks have passed (41_frame_decoder.md R121). -/
def headerDecoded (s : State) : State :=
  { s with
    hdrTid := BitVec.ofNat 16 (be16 (headerBytes s) 0)
    hdrProto := BitVec.ofNat 16 (be16 (headerBytes s) 2)
    hdrLen := BitVec.ofNat 16 (be16 (headerBytes s) 4)
    hdrUnit := byteAt (headerBytes s) 6
    hdrMsgid := byteAt (headerBytes s) 7
    bodyNeed := BitVec.ofNat 17 (bodyNeedCount (be16 (headerBytes s) 4) s.srcLen)
    bodyComplete := bodyCompleteFlag (be16 (headerBytes s) 4) s.srcLen
    draws := s.draws + 1 }

/-- DECODE_HDR over a range of a legal length inside DMEM (41_frame_decoder.md R121). -/
theorem exec_decodeHdr_inside {s : State} (hMin : 9 ≤ s.srcLen) (hMax : s.srcLen ≤ 300)
    (hIn : s.srcAddr + s.srcLen ≤ 2048) : exec .decodeHdr s = .next (completeOk (headerDecoded s)) :=
  (finish_require_pass (decide_eq_true hMin)).trans <|
    (finish_require_pass (decide_eq_true hMax)).trans (finish_require_true ((inRange_iff _ _).mpr hIn))

theorem exec_decodeHdr_tooShort {s : State} (h : s.srcLen < 9) :
    exec .decodeHdr s = .next (raiseError .frameTooShort s) :=
  finish_require_false (decide_eq_false (Nat.not_le.mpr h))

theorem exec_decodeHdr_tooLong {s : State} (h : 300 < s.srcLen) :
    exec .decodeHdr s = .next (raiseError .frameTooLong s) :=
  (finish_require_pass (decide_eq_true (Nat.le_trans (by decide) h))).trans
    (finish_require_false (decide_eq_false (Nat.not_le.mpr h)))

theorem exec_decodeHdr_outside {s : State} (hMin : 9 ≤ s.srcLen) (hMax : s.srcLen ≤ 300)
    (hOut : 2048 < s.srcAddr + s.srcLen) : exec .decodeHdr s = .next (raiseError .badRange s) :=
  (finish_require_pass (decide_eq_true hMin)).trans <|
    (finish_require_pass (decide_eq_true hMax)).trans (finish_require_false ((inRange_false_iff _ _).mpr hOut))

/-- A DECODE_HDR that ends without an error has decoded a header of at least 9 bytes. -/
theorem exec_decodeHdr_of_err_eq_false {s t : State} (h : exec .decodeHdr s = .next t) (hErr : t.err = false) :
    9 ≤ s.srcLen ∧ t = completeOk (headerDecoded s) := by
  rcases execDecodeHdr_cases h with ⟨hMin, -, -, ht⟩ | ⟨-, rfl⟩ | ⟨-, rfl⟩ | ⟨-, -, -, rfl⟩
  · exact ⟨hMin, ht⟩
  all_goals exact absurd hErr (by simp)

/-! ### The fields -/

/-- Byte `i` of a read is the byte at that distance from its address (00_scope.md R9). -/
theorem toNat_byteAt_memRead (s : State) (k a : Nat) {n i : Nat} (hi : i < n) :
    (byteAt (memRead s k a n) i).toNat = s.sees k (a + i) := by
  have hLen : i < (s.dmem.readBytes (s.draw k) a n).length := by rwa [readBytes_length]
  rw [byteAt, memRead, List.getD_eq_getElem _ _ hLen, readBytes_getElem]
  rfl

/-- The big-endian field at offset `i` of a read (00_scope.md R9). -/
theorem be16_memRead (s : State) (k a : Nat) {n i : Nat} (hi : i + 1 < n) :
    be16 (memRead s k a n) i = s.sees k (a + i) * 256 + s.sees k (a + (i + 1)) := by
  rw [be16, toNat_byteAt_memRead s k a (Nat.lt_of_succ_lt hi), toNat_byteAt_memRead s k a hi]

/-- A big-endian field of two bytes fits a 16-bit register. -/
theorem toNat_ofNat_be16 (bs : List Byte) (i : Nat) : (BitVec.ofNat 16 (be16 bs i)).toNat = be16 bs i :=
  Nat.mod_eq_of_lt (be16_lt bs i)

/-- A 16-bit header register holds the two bytes at its offset, most significant first (41_frame_decoder.md R120). -/
theorem toNat_headerField (s : State) {i : Nat} (hi : i + 1 < 8) :
    (BitVec.ofNat 16 (be16 (headerBytes s) i)).toNat =
      s.sees 0 (s.srcAddr + i) * 256 + s.sees 0 (s.srcAddr + (i + 1)) :=
  (toNat_ofNat_be16 _ i).trans (be16_memRead s 0 s.srcAddr hi)

/-! ### What is missing -/

theorem bodyCompleteFlag_iff (len n : Nat) : bodyCompleteFlag len n = true ↔ 6 + len ≤ n :=
  decide_eq_true_iff

/-- BODY_NEED is the missing byte count for the length read, which its 17 bits hold (10_state.md R35). -/
theorem toNat_headerDecoded_bodyNeed (s : State) :
    (headerDecoded s).bodyNeed.toNat = 6 + (headerDecoded s).hdrLen.toNat - s.srcLen := by
  have hLen := be16_lt (headerBytes s) 4
  simp only [headerDecoded, bodyNeedCount, BitVec.toNat_ofNat]
  omega

theorem headerDecoded_bodyComplete_iff (s : State) :
    (headerDecoded s).bodyComplete = true ↔ 6 + (headerDecoded s).hdrLen.toNat ≤ s.srcLen := by
  simp only [headerDecoded, toNat_ofNat_be16, bodyCompleteFlag_iff]

/-- Over a written header the length read involves no free choice (10_state.md R51). -/
theorem headerDecoded_hdrLen_of_dmem_eq {s t : State} (hAddr : t.srcAddr = s.srcAddr) (hDmem : t.dmem = s.dmem)
    (hWritten : rangeWritten s.dmem s.srcAddr 8) : (headerDecoded t).hdrLen = (headerDecoded s).hdrLen := by
  have hBytes : headerBytes t = headerBytes s := by
    rw [headerBytes, memRead, hAddr, hDmem]
    exact readBytes_of_lookup_eq hWritten (fun _ _ => rfl) _ _
  simp only [headerDecoded, hBytes]

/-! ### The settled statements -/

/-- Settles O27: the three checks in order, then the fields as the read of eight bytes gives them. -/
theorem decodeHdrReadsTheHeader : Obligations.DecodeHdrReadsTheHeader := by
  refine ⟨decode_encode .decodeHdr, fun s => ⟨fun hMin hMax hIn => ?fields, exec_decodeHdr_tooShort,
    exec_decodeHdr_tooLong, exec_decodeHdr_outside⟩⟩
  exact ⟨_, exec_decodeHdr_inside hMin hMax hIn, rfl, toNat_headerField s (i := 0) (by decide),
    toNat_headerField s (i := 2) (by decide), toNat_headerField s (i := 4) (by decide),
    toNat_byteAt_memRead s 0 s.srcAddr (i := 6) (by decide), toNat_byteAt_memRead s 0 s.srcAddr (i := 7) (by decide),
    toNat_headerDecoded_bodyNeed s, headerDecoded_bodyComplete_iff s⟩

/-- Settles O28: both runs read the same declared length, of which the first misses BODY_NEED bytes. -/
theorem missingBytesCompleteTheFrame : Obligations.MissingBytesCompleteTheFrame := by
  intro s t m hWritten hFirst hErr hMore hMax hIn
  obtain ⟨hMin, rfl⟩ := exec_decodeHdr_of_err_eq_false hFirst hErr
  let s' : State := { completeOk (headerDecoded s) with lenA := m }
  have hSecond : exec .decodeHdr s' = .next (completeOk (headerDecoded s')) :=
    exec_decodeHdr_inside (Nat.le_trans hMin hMore) hMax hIn
  refine ⟨_, hSecond, rfl, ?_⟩
  have hLen : (headerDecoded s').hdrLen = (headerDecoded s).hdrLen := headerDecoded_hdrLen_of_dmem_eq rfl rfl hWritten
  have hNeed := toNat_headerDecoded_bodyNeed s
  calc (headerDecoded s').bodyComplete = true
      ↔ 6 + (headerDecoded s').hdrLen.toNat ≤ m.toNat := headerDecoded_bodyComplete_iff s'
    _ ↔ s.srcLen + (headerDecoded s).bodyNeed.toNat ≤ m.toNat := by
      rw [hLen, hNeed]
      simp only [State.srcLen]
      omega

end Sys2Proof.Machine
end

section
/-! SUPPORT. CLASSIFY (41_frame_decoder.md R124 to R126): the rows of its table, and how it ends for the vendor protocols and
for the others. -/

namespace Sys2Proof.Machine

/-! ### The table: the IDs of its rows, each with the one kind its lengths can give -/

theorem kindOf_data (len : Nat) : kindOf 0x04#8 len = if len = 257 then .registersReport else .unknown := rfl

theorem kindOf_dataVariant (len : Nat) : kindOf 0x03#8 len = if len = 257 then .announce else .unknown := rfl

theorem kindOf_ping (len : Nat) : kindOf 0x16#8 len = if len = 12 ∨ len = 32 then .ping else .unknown := rfl

theorem kindOf_configBlock (len : Nat) : kindOf 0x50#8 len = if len = 257 then .rawConfigBlock else .unknown := rfl

theorem kindOf_identify (len : Nat) : kindOf 0x19#8 len = .identifyResponse := rfl

/-- An ID of no row is unknown at every length (41_frame_decoder.md R126). -/
theorem kindOf_other {m : Byte} (h : m ∉ [0x04#8, 0x03#8, 0x16#8, 0x50#8, 0x19#8]) (len : Nat) :
    kindOf m len = .unknown := by
  simp only [List.mem_cons, List.not_mem_nil, or_false, not_or] at h
  obtain ⟨hData, hVariant, hPing, hConfig, hIdentify⟩ := h
  rw [kindOf, if_neg hData, if_neg hVariant, if_neg hPing, if_neg hConfig, if_neg hIdentify]

/-- The codes CLASSIFY writes, row by row (41_frame_decoder.md R125, 10_state.md R32). -/
theorem code_kindOf_iff (m : Byte) (len : Nat) :
    ((kindOf m len).code = 1#3 ↔ m.toNat = 0x04 ∧ len = 257) ∧
    ((kindOf m len).code = 5#3 ↔ m.toNat = 0x03 ∧ len = 257) ∧
    ((kindOf m len).code = 3#3 ↔ m.toNat = 0x16 ∧ (len = 12 ∨ len = 32)) ∧
    ((kindOf m len).code = 6#3 ↔ m.toNat = 0x50 ∧ len = 257) ∧
    ((kindOf m len).code = 7#3 ↔ m.toNat = 0x19) := by
  by_cases hm : m ∈ [0x04#8, 0x03#8, 0x16#8, 0x50#8, 0x19#8]
  · simp only [List.mem_cons, List.not_mem_nil, or_false] at hm
    rcases hm with rfl | rfl | rfl | rfl | rfl
    · rw [kindOf_data]
      split_ifs with hLen <;> simp [hLen, MessageKind.code]
    · rw [kindOf_dataVariant]
      split_ifs with hLen <;> simp [hLen, MessageKind.code]
    · rw [kindOf_ping]
      split_ifs with hLen <;> simp [hLen, MessageKind.code]
    · rw [kindOf_configBlock]
      split_ifs with hLen <;> simp [hLen, MessageKind.code]
    · rw [kindOf_identify]
      simp [MessageKind.code]
  · rw [kindOf_other hm]
    simp only [List.mem_cons, List.not_mem_nil, or_false, not_or] at hm
    simp [BitVec.toNat_eq_nat, hm, MessageKind.code]

theorem code_eq_iff (k k' : MessageKind) : k.code = k'.code ↔ k = k' :=
  ⟨fun h => by rw [← kind_ofCode_code k, h, kind_ofCode_code], congrArg _⟩

/-! ### How the command ends -/

/-- CLASSIFY of a vendor header completes, also where its kind is unknown (41_frame_decoder.md R124, R126). -/
theorem exec_classify_vendor {s : State} (h : s.hdrProto = 5#16 ∨ s.hdrProto = 6#16) :
    exec .classify s = .next (completeOk { s with kind := kindOf s.hdrMsgid s.hdrLen.toNat }) :=
  finish_require_true (decide_eq_true h)

theorem exec_classify_other {s : State} (h : ¬(s.hdrProto = 5#16 ∨ s.hdrProto = 6#16)) :
    exec .classify s = .next (raiseError .unsupportedProtocol s) :=
  finish_require_false (decide_eq_false h)

theorem vendorProto_iff (p : Half) : p.toNat = 5 ∨ p.toNat = 6 ↔ p = 5#16 ∨ p = 6#16 := by
  simp [BitVec.toNat_eq_nat]

/-! ### The settled statements -/

/-- Settles O29: the one check is the protocol; the kind is the table's, which holds no acknowledgement. -/
theorem classifyByTheTable : Obligations.ClassifyByTheTable := by
  refine ⟨decode_encode .classify, fun s => ⟨fun hVendor => ?vendor, fun h5 h6 => ?other⟩⟩
  case vendor =>
    obtain ⟨hReport, hAnnounce, hPing, hConfig, hIdentify⟩ := code_kindOf_iff s.hdrMsgid s.hdrLen.toNat
    obtain ⟨hNoAck, hNoPingAck⟩ := kindOf_produced s.hdrMsgid s.hdrLen.toNat
    exact ⟨_, exec_classify_vendor ((vendorProto_iff _).mp hVendor), rfl, hReport, hAnnounce, hPing, hConfig, hIdentify,
      mt (code_eq_iff _ .registersAck).mp hNoAck, mt (code_eq_iff _ .pingAck).mp hNoPingAck⟩
  case other => exact exec_classify_other (mt (vendorProto_iff _).mpr (not_or.mpr ⟨h5, h6⟩))

/-- Settles O30: CLASSIFY of a vendor header completes, and `unknown` is a kind like the others. -/
theorem unknownIsNoError : Obligations.UnknownIsNoError := by
  intro s hVendor hUnknown
  exact ⟨_, exec_classify_vendor hVendor, rfl, rfl, congrArg MessageKind.code hUnknown⟩

end Sys2Proof.Machine
end

section
/-! SUPPORT. A Host read of STATUS (10_state.md R25, R53; 41_frame_decoder.md R123). -/

namespace Sys2Proof.Machine

/-- STATUS reads the same whether a command is pending or not (10_state.md R53). -/
theorem hostReadReg_status (s : State) : hostReadReg .status s = returnRead (statusWord s) s := by
  simp [hostReadReg, readReg]

theorem readData_readAccess_status (s : State) : (hostAccess (readAccess .status) s).readData = statusWord s := by
  rw [hostAccess_readAccess, hostReadReg_status]
  rfl

theorem lenWf_iff (s : State) : s.lenWf = true ↔ 2 ≤ s.hdrLen.toNat ∧ s.hdrLen.toNat ≤ 293 :=
  decide_eq_true_iff

/-- STATUS is a field of seven bits (10_state.md R25). -/
theorem toNat_statusWord_lt (s : State) : (statusWord s).toNat < 128 := by
  rw [statusWord, BitVec.toNat_setWidth_of_le (by decide)]
  exact BitVec.isLt _

/-- Settles O49: the read hands out the STATUS word, whose bit 4 is LEN_WF. -/
theorem statusReadsItsBits : Obligations.StatusReadsItsBits := by
  intro s v
  have hv : v = statusWord s := readData_readAccess_status s
  clear_value v
  subst hv
  have hBit := getLsbD_statusWord s
  refine ⟨hBit 0, hBit 1, hBit 2, hBit 3, ?lenWf, hBit 5, hBit 6, toNat_statusWord_lt s⟩
  rw [hBit 4]
  exact lenWf_iff s

end Sys2Proof.Machine
end

section
/-! SUPPORT. DEOBF (42_deobfuscator.md R140 to R142): how it ends for each outcome of its checks, and the bytes it leaves, also
where it runs twice, in place or in pieces. -/

namespace Sys2Proof.Machine

/-! ### How the command ends -/

/-- The operands DEOBF accepts: a legal key length, and two ranges inside DMEM that are the same one or do not meet
(42_deobfuscator.md R140). -/
structure DeobfLegal (s : State) : Prop where
  keyMin : 1 ≤ s.keyLen.toNat
  keyMax : s.keyLen.toNat ≤ 16
  srcInside : s.srcAddr + s.srcLen ≤ 2048
  dstInside : s.dstAddr + s.srcLen ≤ 2048
  apart : s.dstAddr = s.srcAddr ∨ ¬meets s.srcAddr s.srcLen s.dstAddr s.srcLen

/-- What DEOBF stages once its checks have passed (42_deobfuscator.md R140). -/
def deobfuscated (s : State) : State :=
  { s with
    dmem := s.dmem.storeBytes s.dstAddr (xorKey s s.keyLen.toNat (memRead s 0 s.srcAddr s.srcLen))
    draws := s.draws + 1 }

/-- A legal key length leaves the end of the command to the checks of its ranges (60_exceptions.md R202). -/
theorem deobf_key_pass {s : State} {r : Staged} (hMin : 1 ≤ s.keyLen.toNat) (hMax : s.keyLen.toNat ≤ 16) :
    finish s (require (decide (0 < s.keyLen.toNat ∧ s.keyLen.toNat ≤ Config.keyMax)) .badKey r) = finish s r :=
  finish_require_pass (decide_eq_true ⟨hMin, hMax⟩)

/-- With its ranges inside DMEM the command turns on its check for an overlap (42_deobfuscator.md R140). -/
theorem exec_deobf_inside {s : State} (hMin : 1 ≤ s.keyLen.toNat) (hMax : s.keyLen.toNat ≤ 16)
    (hSrc : s.srcAddr + s.srcLen ≤ 2048) (hDst : s.dstAddr + s.srcLen ≤ 2048) :
    exec .deobf s = finish s (require
      (decide (s.dstAddr = s.srcAddr) || !overlaps s.srcAddr s.srcLen s.dstAddr s.srcLen) .overlap (.ok (deobfuscated s))) :=
  (deobf_key_pass hMin hMax).trans <| (finish_require_pass ((inRange_iff _ _).mpr hSrc)).trans <|
    finish_require_pass ((inRange_iff _ _).mpr hDst)

theorem exec_deobf_legal {s : State} (h : DeobfLegal s) : exec .deobf s = .next (completeOk (deobfuscated s)) := by
  obtain ⟨hMin, hMax, hSrc, hDst, hApart⟩ := h
  refine (exec_deobf_inside hMin hMax hSrc hDst).trans (finish_require_true ?_)
  rw [Bool.or_eq_true, decide_eq_true_iff, Bool.not_eq_true', overlaps_false_iff]
  exact hApart

theorem exec_deobf_badKey {s : State} (h : s.keyLen.toNat = 0 ∨ 16 < s.keyLen.toNat) :
    exec .deobf s = .next (raiseError .badKey s) := by
  refine finish_require_false (decide_eq_false fun hLegal => ?_)
  obtain ⟨hMin, hMax⟩ := hLegal
  exact h.elim (Nat.ne_of_gt hMin) (Nat.not_lt.mpr hMax)

theorem exec_deobf_badRange {s : State} (hMin : 1 ≤ s.keyLen.toNat) (hMax : s.keyLen.toNat ≤ 16)
    (h : 2048 < s.srcAddr + s.srcLen ∨ 2048 < s.dstAddr + s.srcLen) : exec .deobf s = .next (raiseError .badRange s) := by
  refine (deobf_key_pass hMin hMax).trans ?_
  by_cases hSrc : s.srcAddr + s.srcLen ≤ 2048
  · have hDst := h.resolve_left (Nat.not_lt.mpr hSrc)
    exact (finish_require_pass ((inRange_iff _ _).mpr hSrc)).trans (finish_require_false ((inRange_false_iff _ _).mpr hDst))
  · exact finish_require_false ((inRange_false_iff _ _).mpr (Nat.lt_of_not_le hSrc))

theorem exec_deobf_overlap {s : State} (hMin : 1 ≤ s.keyLen.toNat) (hMax : s.keyLen.toNat ≤ 16)
    (hSrc : s.srcAddr + s.srcLen ≤ 2048) (hDst : s.dstAddr + s.srcLen ≤ 2048) (hNe : s.dstAddr ≠ s.srcAddr)
    (hMeets : meets s.srcAddr s.srcLen s.dstAddr s.srcLen) : exec .deobf s = .next (raiseError .overlap s) := by
  refine (exec_deobf_inside hMin hMax hSrc hDst).trans (finish_require_false ?_)
  rw [decide_eq_false hNe, (overlaps_iff _ _ _ _).mpr hMeets]
  rfl

/-! ### The bytes it leaves -/

theorem xorKey_getElem? (s : State) (k : Nat) (bs : List Byte) (i : Nat) :
    (xorKey s k bs)[i]? = bs[i]?.map (· ^^^ keyByte s (i % k)) :=
  List.getElem?_mapIdx

theorem lookup_deobfuscated (s : State) {i : Nat} (hi : i < s.srcLen) :
    (deobfuscated s).dmem.lookup (s.dstAddr + i) =
      some (s.dmem.readByte (s.draw 0) (s.srcAddr + i) ^^^ keyByte s (i % s.keyLen.toNat)) := by
  have hRead : i < (s.dmem.readBytes (s.draw 0) s.srcAddr s.srcLen).length := by rwa [readBytes_length]
  have hStored := holdsBytes_storeBytes s.dmem s.dstAddr (xorKey s s.keyLen.toNat (memRead s 0 s.srcAddr s.srcLen)) i
    (by rwa [xorKey_length, memRead_length])
  rw [deobfuscated, hStored, xorKey_getElem?, memRead, List.getElem?_eq_getElem hRead, readBytes_getElem, Option.map_some]

/-- A written source byte involves no free choice (10_state.md R51). -/
theorem lookup_deobfuscated_of_lookup {s : State} {i : Nat} {b : Byte} (hi : i < s.srcLen)
    (h : s.dmem.lookup (s.srcAddr + i) = some b) :
    (deobfuscated s).dmem.lookup (s.dstAddr + i) = some (b ^^^ keyByte s (i % s.keyLen.toNat)) := by
  rw [lookup_deobfuscated s hi, readByte_of_lookup h]

theorem sameOutside_deobfuscated (s : State) : sameOutside s.dmem (deobfuscated s).dmem s.dstAddr s.srcLen := by
  have hFrame := sameOutside_storeBytes s.dmem s.dstAddr (xorKey s s.keyLen.toNat (memRead s 0 s.srcAddr s.srcLen))
  rwa [xorKey_length, memRead_length] at hFrame

/-! ### In place -/

/-- `s` with the operands of a DEOBF in place of `n` bytes from `a` on (42_deobfuscator.md R141). -/
def inPlace (s : State) (a n : Half) : State := { s with addrA := a, addrD := a, lenA := n }

theorem exec_deobf_inPlace {s : State} {a n : Half} (hMin : 1 ≤ s.keyLen.toNat) (hMax : s.keyLen.toNat ≤ 16)
    (hIn : a.toNat + n.toNat ≤ 2048) :
    exec .deobf (inPlace s a n) = .next (completeOk (deobfuscated (inPlace s a n))) :=
  exec_deobf_legal ⟨hMin, hMax, hIn, hIn, .inl rfl⟩

theorem lookup_deobfuscated_inPlace {s : State} {a n : Half} {i : Nat} {b : Byte} (hi : i < n.toNat)
    (h : s.dmem.lookup (a.toNat + i) = some b) :
    (deobfuscated (inPlace s a n)).dmem.lookup (a.toNat + i) = some (b ^^^ keyByte s (i % s.keyLen.toNat)) :=
  lookup_deobfuscated_of_lookup (s := inPlace s a n) hi h

theorem sameOutside_deobfuscated_inPlace (s : State) (a n : Half) :
    sameOutside s.dmem (deobfuscated (inPlace s a n)).dmem a.toNat n.toNat :=
  sameOutside_deobfuscated (inPlace s a n)

/-- A second piece of `m` bytes behind a first one of `n` bytes gives the memory of both at once, where the key starts anew at
the second piece (42_deobfuscator.md R141). -/
theorem lookup_deobfuscated_inPlace_add {s : State} {a n m b l : Half} {q : Nat} (hq : n.toNat = q * s.keyLen.toNat)
    (hb : b.toNat = a.toNat + n.toNat) (hl : l.toNat = n.toNat + m.toNat) (hWritten : rangeWritten s.dmem a.toNat l.toNat)
    (x : Nat) :
    (deobfuscated (inPlace (completeOk (deobfuscated (inPlace s a n))) b m)).dmem.lookup x =
      (deobfuscated (inPlace s a l)).dmem.lookup x := by
  let t := completeOk (deobfuscated (inPlace s a n))
  have hFirst : sameOutside s.dmem t.dmem a.toNat n.toNat := sameOutside_deobfuscated_inPlace s a n
  have hSecond := sameOutside_deobfuscated_inPlace t b m
  by_cases hx : a.toNat ≤ x ∧ x < a.toNat + l.toNat
  · obtain ⟨hLow, hHigh⟩ := hx
    obtain ⟨i, rfl⟩ := Nat.exists_eq_add_of_le hLow
    have hi : i < l.toNat := Nat.lt_of_add_lt_add_left hHigh
    obtain ⟨v, hv⟩ := Option.isSome_iff_exists.mp (hWritten i hi)
    rw [lookup_deobfuscated_inPlace hi hv]
    by_cases hPiece : i < n.toNat
    · exact (hSecond _ (by omega)).trans (lookup_deobfuscated_inPlace hPiece hv)
    · obtain ⟨j, rfl⟩ := Nat.exists_eq_add_of_le (Nat.le_of_not_lt hPiece)
      have hAddr : a.toNat + (n.toNat + j) = b.toNat + j := by rw [hb, Nat.add_assoc]
      have hKey : (n.toNat + j) % s.keyLen.toNat = j % s.keyLen.toNat := by rw [hq, Nat.mul_add_mod_self_right]
      have hKept : t.dmem.lookup (b.toNat + j) = some v := by
        rw [hFirst _ (by omega), ← hAddr, hv]
      rw [hAddr, hKey]
      exact lookup_deobfuscated_inPlace (s := t) (by omega) hKept
  · calc (deobfuscated (inPlace t b m)).dmem.lookup x
        = t.dmem.lookup x := hSecond x (by omega)
      _ = s.dmem.lookup x := hFirst x (by omega)
      _ = (deobfuscated (inPlace s a l)).dmem.lookup x := (sameOutside_deobfuscated_inPlace s a l x hx).symm

/-! ### The settled statements -/

/-- Settles O31: the four checks in order, then the one write to DMEM is the run of XORed bytes. -/
theorem deobfXorsWithTheCycledKey : Obligations.DeobfXorsWithTheCycledKey := by
  refine ⟨decode_encode .deobf, fun s => ⟨fun hMin hMax hSrc hDst hApart => ?legal, exec_deobf_badKey,
    exec_deobf_badRange, exec_deobf_overlap⟩⟩
  exact ⟨_, exec_deobf_legal ⟨hMin, hMax, hSrc, hDst, hApart⟩, rfl, fun i hi => lookup_deobfuscated s hi,
    sameOutside_deobfuscated s⟩

/-- Settles O32: the second run XORs the same key byte onto each byte again, and the two cancel. -/
theorem deobfTwiceGivesTheBytesBack : Obligations.DeobfTwiceGivesTheBytesBack := by
  intro s e a d n hMin hMax hSrc hDst hThird hApart hApart' hWritten
  let s' : State := { completeOk (deobfuscated s) with addrA := s.addrD, addrD := e }
  refine ⟨_, _, exec_deobf_legal ⟨hMin, hMax, hSrc, hDst, hApart⟩,
    exec_deobf_legal (s := s') ⟨hMin, hMax, hDst, hThird, hApart'⟩, fun i hi => ?_⟩
  obtain ⟨b, hb⟩ := Option.isSome_iff_exists.mp (hWritten i hi)
  have hOnce : s'.dmem.lookup (d + i) = some (b ^^^ keyByte s (i % s.keyLen.toNat)) :=
    lookup_deobfuscated_of_lookup hi hb
  calc (deobfuscated s').dmem.lookup (e.toNat + i)
      = some (b ^^^ keyByte s (i % s.keyLen.toNat) ^^^ keyByte s (i % s.keyLen.toNat)) :=
        lookup_deobfuscated_of_lookup (s := s') hi hOnce
    _ = some b := by rw [BitVec.xor_assoc, BitVec.xor_self, BitVec.xor_zero]
    _ = s.dmem.lookup (a + i) := hb.symm

/-- Settles O33: each run completes, and `lookup_deobfuscated_inPlace_add` compares the memories. -/
theorem deobfInPiecesAtKeyMultiples : Obligations.DeobfInPiecesAtKeyMultiples := by
  intro s a n m q hMin hMax hq hIn hWritten
  have hNext : (a + n).toNat = a.toNat + n.toNat := BitVec.toNat_add_of_lt (by omega)
  have hWhole : (n + m).toNat = n.toNat + m.toNat := BitVec.toNat_add_of_lt (by omega)
  exact ⟨_, _, _, exec_deobf_inPlace hMin hMax (by omega),
    exec_deobf_inPlace (s := completeOk (deobfuscated (inPlace s a n))) hMin hMax (by omega),
    exec_deobf_inPlace hMin hMax (by omega),
    lookup_deobfuscated_inPlace_add hq hNext hWhole (hWhole ▸ hWritten)⟩

end Sys2Proof.Machine
end

section
/-! SUPPORT. The descriptors in use and REC_SIZE (43_record_parser.md R151): REC_SIZE is the greatest of the field ends. -/

namespace Sys2Proof.Machine

/-- DESC[i], for i < 64 (10_state.md R44). -/
def descAt (s : State) (i : Nat) : BitVec 18 := s.desc.toList.getD i 0#18

/-- The descriptors in use are DESC[0] up to DESC[min(NDESC, 64) - 1] (10_state.md R43). -/
theorem descInUse_eq_map (s : State) : s.descInUse = (List.range (min s.ndesc.toNat 64)).map (descAt s) := by
  refine List.ext_getElem (by simp [State.descInUse]) fun i hi _ => ?_
  have hDesc : i < s.desc.toList.length := hi.trans_le (List.length_take_le' _ _)
  simp only [State.descInUse, List.getElem_take, List.getElem_map, List.getElem_range]
  exact (List.getD_eq_getElem _ _ hDesc).symm

/-! ### The greatest of a list -/

theorem foldl_max_zero_eq (l : List Nat) : l.foldl max 0 = l.max?.getD 0 := by
  rw [List.foldl_max, Nat.zero_max]

theorem le_foldl_max_zero {l : List Nat} {x : Nat} (hx : x ∈ l) : x ≤ l.foldl max 0 := by
  obtain ⟨m, hm⟩ := Option.ne_none_iff_exists'.mp (mt List.max?_eq_none_iff.mp (List.ne_nil_of_mem hx))
  obtain ⟨-, hGreatest⟩ := List.max?_eq_some_iff.mp hm
  rw [foldl_max_zero_eq, hm]
  exact hGreatest x hx

theorem foldl_max_zero_eq_zero_or_mem (l : List Nat) : l.foldl max 0 = 0 ∨ l.foldl max 0 ∈ l := by
  rw [foldl_max_zero_eq]
  cases hm : l.max? with
  | none => exact .inl rfl
  | some m => exact .inr (List.max?_eq_some_iff.mp hm).1

/-! ### REC_SIZE -/

theorem recSize_eq_foldl (s : State) :
    s.recSize = ((List.range (min s.ndesc.toNat 64)).map fun i => fieldEnd (descAt s i)).foldl max 0 := by
  rw [State.recSize, descInUse_eq_map, List.map_map, Function.comp_def]

theorem fieldEnd_le_recSize {s : State} {i : Nat} (hi : i < min s.ndesc.toNat 64) : fieldEnd (descAt s i) ≤ s.recSize := by
  rw [recSize_eq_foldl]
  exact le_foldl_max_zero (List.mem_map.mpr ⟨i, List.mem_range.mpr hi, rfl⟩)

theorem recSize_eq_zero_or_fieldEnd (s : State) :
    s.recSize = 0 ∨ ∃ i < min s.ndesc.toNat 64, s.recSize = fieldEnd (descAt s i) := by
  rw [recSize_eq_foldl]
  refine (foldl_max_zero_eq_zero_or_mem _).imp_right fun hMem => ?_
  obtain ⟨i, hi, hEnd⟩ := List.mem_map.mp hMem
  exact ⟨i, List.mem_range.mp hi, hEnd.symm⟩

/-- REC_SIZE is computed from NDESC and DESC alone (43_record_parser.md R151). -/
theorem recSize_congr {s t : State} (hNdesc : t.ndesc = s.ndesc) (hDesc : t.desc = s.desc) : t.recSize = s.recSize := by
  rw [State.recSize, State.recSize, State.descInUse, State.descInUse, hNdesc, hDesc]

/-- Settles O35: the maximum bounds every field end and is one of them, and its 18 bits hold `recSize_le`. -/
theorem recSizeIsTheFurthestEnd : Obligations.RecSizeIsTheFurthestEnd := fun s =>
  ⟨fun _ hi => fieldEnd_le_recSize hi, recSize_eq_zero_or_fieldEnd s, toNat_readReg_recSize s,
    (recSize_le s).trans_lt (by decide)⟩

end Sys2Proof.Machine
end

section
/-! SUPPORT. Record layouts in the Host's descriptors (43_record_parser.md R150, R154): where the fields of a contiguous layout
lie, with and without the padding region, and the REC_SIZE they give. -/

namespace Sys2Proof.Machine

/-- The end of a field of a layout, counted from the record start (43_record_parser.md R151). -/
def layoutEnd (field : Nat × Nat) : Nat := field.1 + fieldWidth field.2

/-! ### Fields laid end to end -/

theorem fieldsSize_cons (wc : Nat) (wcs : List Nat) : fieldsSize (wc :: wcs) = fieldWidth wc + fieldsSize wcs :=
  List.sum_cons

theorem fieldsSize_append (wcs wcs' : List Nat) : fieldsSize (wcs ++ wcs') = fieldsSize wcs + fieldsSize wcs' := by
  rw [fieldsSize, List.map_append, List.sum_append, fieldsSize, fieldsSize]

theorem fieldWidth_le (wc : Nat) : fieldWidth wc ≤ 4 := by
  unfold fieldWidth
  split_ifs <;> decide

theorem fieldsSize_le (wcs : List Nat) : fieldsSize wcs ≤ wcs.length * 4 := by
  have hSum := List.sum_le_card_nsmul (wcs.map fieldWidth) 4 fun x hx => by
    obtain ⟨wc, -, rfl⟩ := List.mem_map.mp hx
    exact fieldWidth_le wc
  rwa [List.length_map, smul_eq_mul] at hSum

theorem contiguousFields_length (off : Nat) (wcs : List Nat) : (contiguousFields off wcs).length = wcs.length := by
  induction wcs generalizing off with
  | nil => rfl
  | cons wc rest ih => rw [contiguousFields, List.length_cons, List.length_cons, ih]

/-- A field of a contiguous layout lies between the layout's start and its end and has one of the given width codes. -/
theorem bounds_of_mem_contiguousFields {off : Nat} {wcs : List Nat} {f : Nat × Nat} (hf : f ∈ contiguousFields off wcs) :
    off ≤ f.1 ∧ layoutEnd f ≤ off + fieldsSize wcs ∧ f.2 ∈ wcs := by
  induction wcs generalizing off with
  | nil => cases hf
  | cons wc rest ih =>
    rw [fieldsSize_cons]
    rcases List.mem_cons.mp hf with rfl | hRest
    · exact ⟨Nat.le_refl _, by simp only [layoutEnd]; omega, List.mem_cons_self⟩
    · obtain ⟨hLow, hHigh, hCode⟩ := ih hRest
      exact ⟨by omega, by omega, List.mem_cons_of_mem _ hCode⟩

/-- The field ends rise along a contiguous layout, so the last one is the greatest. -/
theorem foldl_max_contiguousFields {init off wc : Nat} (h : init ≤ off) (rest : List Nat) :
    ((contiguousFields off (wc :: rest)).map layoutEnd).foldl max init = off + fieldsSize (wc :: rest) := by
  induction rest generalizing init off wc with
  | nil =>
    have hFirst : max init (off + fieldWidth wc) = off + fieldWidth wc := by omega
    exact hFirst
  | cons wc' rest ih =>
    have hFirst : max init (off + fieldWidth wc) ≤ off + fieldWidth wc := by omega
    calc ((contiguousFields off (wc :: wc' :: rest)).map layoutEnd).foldl max init
        = off + fieldWidth wc + fieldsSize (wc' :: rest) := ih hFirst
      _ = off + fieldsSize (wc :: wc' :: rest) := by rw [fieldsSize_cons wc, Nat.add_assoc]

/-! ### The layout with its padding region -/

theorem paddedLayout_length (before after : List Nat) :
    (paddedLayout before after).length = before.length + after.length := by
  rw [paddedLayout, List.length_append, contiguousFields_length, contiguousFields_length]

/-- A field lies before the padding or behind it, inside the layout, and has one of the given width codes. -/
theorem bounds_of_mem_paddedLayout {before after : List Nat} {f : Nat × Nat} (hf : f ∈ paddedLayout before after) :
    (layoutEnd f ≤ fieldsSize before ∨ fieldsSize before + 12 ≤ f.1) ∧
      layoutEnd f ≤ fieldsSize (before ++ after) + 12 ∧ f.2 ∈ before ++ after := by
  rw [fieldsSize_append]
  rcases List.mem_append.mp hf with hBefore | hAfter
  · obtain ⟨-, hHigh, hCode⟩ := bounds_of_mem_contiguousFields hBefore
    exact ⟨.inl (by omega), by omega, List.mem_append_left _ hCode⟩
  · obtain ⟨hLow, hHigh, hCode⟩ := bounds_of_mem_contiguousFields hAfter
    simp only [Config.padLen] at hLow hHigh
    exact ⟨.inr hLow, by omega, List.mem_append_right _ hCode⟩

/-- The last field behind the padding ends furthest. -/
theorem foldl_max_paddedLayout (before : List Nat) {after : List Nat} (hAfter : after ≠ []) :
    ((paddedLayout before after).map layoutEnd).foldl max 0 = fieldsSize (before ++ after) + 12 := by
  obtain ⟨wc, rest, rfl⟩ := List.exists_cons_of_ne_nil hAfter
  have hBefore : ((contiguousFields 0 before).map layoutEnd).foldl max 0 ≤ fieldsSize before + 12 :=
    foldl_max_le (Nat.zero_le _) fun x hx => by
      obtain ⟨f, hf, rfl⟩ := List.mem_map.mp hx
      obtain ⟨-, hHigh, -⟩ := bounds_of_mem_contiguousFields hf
      omega
  rw [paddedLayout, List.map_append, List.foldl_append, foldl_max_contiguousFields hBefore, fieldsSize_append]
  exact Nat.add_right_comm _ _ _

/-! ### A layout in the descriptors -/

/-- A descriptor that holds a field's DESC word has the field's end (10_state.md R44). -/
theorem fieldEnd_of_descWord {d : BitVec 18} {f : Nat × Nat} (hOff : f.1 < 65536) (hCode : f.2 < 4)
    (h : d.setWidth 32 = descWord f) : fieldEnd d = layoutEnd f := by
  have hd : d = BitVec.ofNat 2 f.2 ++ BitVec.ofNat 16 f.1 := by
    have hLow := congrArg (BitVec.setWidth 18) h
    rwa [descWord, BitVec.setWidth_setWidth_of_le _ (by decide), BitVec.setWidth_setWidth_of_le _ (by decide),
      BitVec.setWidth_eq, BitVec.setWidth_eq] at hLow
  have hDescOff : descOff d = f.1 := by
    rw [descOff, hd, BitVec.extractLsb'_append_eq_right, BitVec.toNat_ofNat, Nat.mod_eq_of_lt hOff]
  have hDescW : descW d = f.2 := by
    rw [descW, hd, BitVec.extractLsb'_append_eq_left, BitVec.toNat_ofNat, Nat.mod_eq_of_lt hCode]
  rw [fieldEnd, hDescOff, hDescW, layoutEnd]

/-- REC_SIZE of a layout laid down in the descriptors is the greatest of its field ends (43_record_parser.md R151). -/
theorem recSize_of_layout {s : State} {layout : List (Nat × Nat)} (hNdesc : s.ndesc.toNat = layout.length)
    (hLen : layout.length ≤ 64) (h : ∀ i f, layout[i]? = some f → fieldEnd (descAt s i) = layoutEnd f) :
    s.recSize = (layout.map layoutEnd).foldl max 0 := by
  have hEnds : (List.range (min s.ndesc.toNat 64)).map (fun i => fieldEnd (descAt s i)) = layout.map layoutEnd := by
    refine List.ext_getElem (by simp [hNdesc, hLen]) fun i _ hi => ?_
    rw [List.length_map] at hi
    rw [List.getElem_map, List.getElem_map, List.getElem_range]
    exact h i _ (List.getElem?_eq_getElem hi)
  rw [recSize_eq_foldl, hEnds]

/-- Settles O36: the layout's offsets fit the 16 bits of OFF, so the descriptors hold its field ends. -/
theorem paddedLayoutIsSteppedOver : Obligations.PaddedLayoutIsSteppedOver := by
  intro s before after hAfter hCodes hLen hNdesc hDesc
  have hSize := fieldsSize_le (before ++ after)
  rw [List.length_append] at hSize
  have hEnd : ∀ i f, (paddedLayout before after)[i]? = some f → fieldEnd (descAt s i) = layoutEnd f := fun i f hf => by
    obtain ⟨-, hHigh, hMem⟩ := bounds_of_mem_paddedLayout (List.mem_of_getElem? hf)
    have hStart : f.1 ≤ layoutEnd f := Nat.le_add_right _ _
    have hCode := hCodes _ hMem
    exact fieldEnd_of_descWord (by omega) (by omega) (hDesc i f hf)
  have hLayoutLen := paddedLayout_length before after
  refine ⟨?recSize, fun f hf => (bounds_of_mem_paddedLayout hf).1⟩
  rw [recSize_of_layout (hNdesc.trans hLayoutLen.symm) (hLayoutLen.trans_le hLen) hEnd, foldl_max_paddedLayout before hAfter]

end Sys2Proof.Machine
end

section
/-! SUPPORT. PARSE (43_record_parser.md R152, R153): how it ends for each outcome of its checks, the numbers it unpacks, and the
bytes they come from. -/

namespace Sys2Proof.Machine

/-! ### How the command ends -/

/-- The descriptors PARSE accepts: at most 64 in use, each with a legal width code (43_record_parser.md R152). -/
def DescsLegal (s : State) : Prop :=
  s.ndesc.toNat ≤ 64 ∧ ∀ i < s.ndesc.toNat, descW (descAt s i) = 1 ∨ descW (descAt s i) = 2

/-- The operands PARSE accepts: legal descriptors, and a body inside DMEM that holds the whole record
(43_record_parser.md R152). -/
structure ParseLegal (s : State) : Prop where
  descs : DescsLegal s
  inside : s.srcAddr + s.srcLen ≤ 2048
  recordFits : 71 + s.recSize ≤ s.srcLen

/-- PARSE's checks look at the operands and the descriptors alone (43_record_parser.md R152). -/
theorem ParseLegal.congr {s s' : State} (h : ParseLegal s) (hAddr : s'.addrA = s.addrA) (hLen : s'.lenA = s.lenA)
    (hNdesc : s'.ndesc = s.ndesc) (hDesc : s'.desc = s.desc) : ParseLegal s' := by
  obtain ⟨hDescs, hIn, hFits⟩ := h
  refine ⟨?_, ?_, ?_⟩
  · simpa only [DescsLegal, descAt, hNdesc, hDesc] using hDescs
  · simpa only [State.srcAddr, State.srcLen, hAddr, hLen] using hIn
  · simpa only [State.srcLen, hLen, recSize_congr hNdesc hDesc] using hFits

/-- What PARSE stages once its checks have passed (43_record_parser.md R152). -/
def parsed (s : State) : State :=
  { s with
    recs := tabulate 64 fun i => if i < s.ndesc.toNat then fieldValue s i else s.recs.toList.getD i 0#32
    draws := s.draws + s.ndesc.toNat }

theorem descLegal_iff (d : BitVec 18) : descLegal d = true ↔ descW d = 1 ∨ descW d = 2 := decide_eq_true_iff

/-- PARSE's two checks of the descriptors together ask that they are legal. -/
theorem descsLegal_iff (s : State) : DescsLegal s ↔ s.ndesc.toNat ≤ 64 ∧ s.descInUse.all descLegal = true := by
  refine and_congr_right fun hNdesc => ?_
  simp only [descInUse_eq_map, Nat.min_eq_left hNdesc, List.all_map, List.all_eq_true, List.mem_range, Function.comp_apply,
    descLegal_iff]

/-- Legal descriptors leave the end of the command to the checks of its range (60_exceptions.md R202). -/
theorem parse_descs_pass {s : State} {r : Staged} (h : DescsLegal s) :
    finish s (require (decide (s.ndesc.toNat ≤ Config.ndescMax)) .badDesc
      (require (s.descInUse.all descLegal) .badDesc r)) = finish s r := by
  obtain ⟨hNdesc, hAll⟩ := (descsLegal_iff s).mp h
  exact (finish_require_pass (decide_eq_true hNdesc)).trans (finish_require_pass hAll)

theorem exec_parse_legal {s : State} (h : ParseLegal s) : exec .parse s = .next (completeOk (parsed s)) :=
  (parse_descs_pass h.descs).trans <| (finish_require_pass ((inRange_iff _ _).mpr h.inside)).trans
    (finish_require_true (decide_eq_true h.recordFits))

theorem exec_parse_badDesc {s : State} (h : ¬DescsLegal s) : exec .parse s = .next (raiseError .badDesc s) := by
  rw [descsLegal_iff] at h
  by_cases hNdesc : s.ndesc.toNat ≤ 64
  · have hAll : s.descInUse.all descLegal = false := Bool.eq_false_iff.mpr fun hAll => h ⟨hNdesc, hAll⟩
    exact (finish_require_pass (decide_eq_true hNdesc)).trans (finish_require_false hAll)
  · exact finish_require_false (decide_eq_false hNdesc)

theorem exec_parse_badRange {s : State} (hDescs : DescsLegal s) (hOut : 2048 < s.srcAddr + s.srcLen) :
    exec .parse s = .next (raiseError .badRange s) :=
  (parse_descs_pass hDescs).trans (finish_require_false ((inRange_false_iff _ _).mpr hOut))

theorem exec_parse_truncatedRecord {s : State} (hDescs : DescsLegal s) (hIn : s.srcAddr + s.srcLen ≤ 2048)
    (hShort : s.srcLen < 71 + s.recSize) : exec .parse s = .next (raiseError .truncatedRecord s) :=
  (parse_descs_pass hDescs).trans <| (finish_require_pass ((inRange_iff _ _).mpr hIn)).trans
    (finish_require_false (decide_eq_false (Nat.not_le.mpr hShort)))

/-- A PARSE that ends without an error has passed every check. -/
theorem exec_parse_of_err_eq_false {s t : State} (h : exec .parse s = .next t) (hErr : t.err = false) :
    ParseLegal s ∧ t = completeOk (parsed s) := by
  rcases execParse_cases h with ⟨hNdesc, hAll, hIn, hFits, ht⟩ | ⟨-, rfl⟩ | ⟨-, rfl⟩ | ⟨-, rfl⟩
  · exact ⟨⟨(descsLegal_iff s).mpr ⟨hNdesc, hAll⟩, (inRange_iff _ _).mp hIn, hFits⟩, ht⟩
  all_goals exact absurd hErr (by simp)

/-! ### The numbers it unpacks -/

/-- Where field `i` starts in DMEM (43_record_parser.md R152). -/
def fieldAddr (s : State) (i : Nat) : Nat := s.srcAddr + 71 + descOff (descAt s i)

theorem fieldValue_narrow {s : State} {i : Nat} (h : descW (descAt s i) = 1) :
    fieldValue s i = BitVec.ofNat 32 (be16 (memRead s i (fieldAddr s i) 2) 0) := if_pos h

theorem fieldValue_wide {s : State} {i : Nat} (h : descW (descAt s i) = 2) :
    fieldValue s i = BitVec.ofNat 32 (be32 (memRead s i (fieldAddr s i) 4) 0) := if_neg (by rw [← descAt, h]; decide)

theorem be32_lt (bs : List Byte) (i : Nat) : be32 bs i < 2 ^ 32 := by
  have hHigh := be16_lt bs i
  have hLow := be16_lt bs (i + 2)
  unfold be32
  omega

theorem toNat_fieldValue_narrow {s : State} {i : Nat} (h : descW (descAt s i) = 1) :
    (fieldValue s i).toNat = s.sees i (fieldAddr s i) * 256 + s.sees i (fieldAddr s i + 1) := by
  rw [fieldValue_narrow h, BitVec.toNat_ofNat, Nat.mod_eq_of_lt ((be16_lt _ _).trans (by decide))]
  exact be16_memRead s i _ (by decide)

theorem toNat_fieldValue_wide {s : State} {i : Nat} (h : descW (descAt s i) = 2) :
    (fieldValue s i).toNat =
      ((s.sees i (fieldAddr s i) * 256 + s.sees i (fieldAddr s i + 1)) * 256 + s.sees i (fieldAddr s i + 2)) * 256 +
        s.sees i (fieldAddr s i + 3) := by
  have hHigh := be16_memRead s i (fieldAddr s i) (n := 4) (i := 0) (by decide)
  have hLow := be16_memRead s i (fieldAddr s i) (n := 4) (i := 2) (by decide)
  rw [fieldValue_wide h, BitVec.toNat_ofNat, Nat.mod_eq_of_lt (be32_lt _ _), be32, hHigh, hLow]
  simp only [Nat.add_zero, Nat.reduceAdd]
  omega

theorem parsed_recs_of_lt {s : State} {i : Fin 64} (hi : i.val < s.ndesc.toNat) : (parsed s).recs[i] = fieldValue s i :=
  (tabulate_getElem _ _ _ i.isLt).trans (if_pos hi)

theorem parsed_recs_of_le {s : State} {i : Fin 64} (hi : s.ndesc.toNat ≤ i.val) : (parsed s).recs[i] = s.recs[i] := by
  have hEntry : (parsed s).recs[i] = s.recs.toList.getD i 0#32 :=
    (tabulate_getElem _ _ _ i.isLt).trans (if_neg (Nat.not_lt.mpr hi))
  simp [hEntry]

/-! ### The bytes it reads -/

/-- Two states whose records, at the same place and by the same descriptors, hold the same written bytes. -/
structure SameRecord (s s' : State) : Prop where
  srcAddr : s'.srcAddr = s.srcAddr
  desc : s'.desc = s.desc
  written : rangeWritten s.dmem (s.srcAddr + 71) s.recSize
  bytes : ∀ i < s.recSize, s'.dmem.lookup (s.srcAddr + 71 + i) = s.dmem.lookup (s.srcAddr + 71 + i)

/-- Reads inside the record give the same bytes in both states. -/
theorem SameRecord.memRead_eq {s s' : State} (h : SameRecord s s') {off n : Nat} (hEnd : off + n ≤ s.recSize) (k : Nat) :
    memRead s' k (s.srcAddr + 71 + off) n = memRead s k (s.srcAddr + 71 + off) n := by
  refine readBytes_of_lookup_eq (fun i hi => ?_) (fun i hi => ?_) _ _
  · rw [Nat.add_assoc _ off]
    exact h.written (off + i) (by omega)
  · rw [Nat.add_assoc _ off]
    exact h.bytes (off + i) (by omega)

/-- A field in use with a legal width lies inside the record, so both states unpack the same number. -/
theorem SameRecord.fieldValue_eq {s s' : State} (h : SameRecord s s') (hDescs : DescsLegal s) {i : Nat}
    (hi : i < s.ndesc.toNat) : fieldValue s' i = fieldValue s i := by
  obtain ⟨hNdesc, hWidths⟩ := hDescs
  have hEnd : descOff (descAt s i) + fieldWidth (descW (descAt s i)) ≤ s.recSize := fieldEnd_le_recSize (by omega)
  have hDesc : descAt s' i = descAt s i := by rw [descAt, descAt, h.desc]
  have hAddr : fieldAddr s' i = fieldAddr s i := by rw [fieldAddr, fieldAddr, hDesc, h.srcAddr]
  rcases hWidths i hi with hWidth | hWidth
  · have hRead : memRead s' i (fieldAddr s i) 2 = memRead s i (fieldAddr s i) 2 := h.memRead_eq (by rwa [hWidth] at hEnd) i
    rw [fieldValue_narrow (hDesc ▸ hWidth), fieldValue_narrow hWidth, hAddr, hRead]
  · have hRead : memRead s' i (fieldAddr s i) 4 = memRead s i (fieldAddr s i) 4 := h.memRead_eq (by rwa [hWidth] at hEnd) i
    rw [fieldValue_wide (hDesc ▸ hWidth), fieldValue_wide hWidth, hAddr, hRead]

theorem SameRecord.parsed_recs_eq {s s' : State} (h : SameRecord s s') (hDescs : DescsLegal s) (hNdesc : s'.ndesc = s.ndesc)
    (hRecs : s'.recs = s.recs) : (parsed s').recs = (parsed s).recs := by
  refine Vector.ext fun i hi => ?_
  by_cases hUse : i < s.ndesc.toNat
  · calc (parsed s').recs[i]
        = fieldValue s' i := parsed_recs_of_lt (i := ⟨i, hi⟩) (by rwa [hNdesc])
      _ = fieldValue s i := h.fieldValue_eq hDescs hUse
      _ = (parsed s).recs[i] := (parsed_recs_of_lt (i := ⟨i, hi⟩) hUse).symm
  · have hUnused : s.ndesc.toNat ≤ i := Nat.le_of_not_lt hUse
    calc (parsed s').recs[i]
        = s'.recs[i] := parsed_recs_of_le (i := ⟨i, hi⟩) (by rwa [hNdesc])
      _ = s.recs[i] := by rw [hRecs]
      _ = (parsed s).recs[i] := (parsed_recs_of_le (i := ⟨i, hi⟩) hUnused).symm

/-! ### The settled statements -/

/-- Settles O37: the checks in order, then each entry of REC is the number of its field or as it was. -/
theorem parseUnpacksTheFields : Obligations.ParseUnpacksTheFields := by
  refine ⟨decode_encode .parse, fun s => ⟨fun hDescs hIn hFits => ?legal, exec_parse_badDesc, exec_parse_badRange,
    exec_parse_truncatedRecord⟩⟩
  refine ⟨_, exec_parse_legal ⟨hDescs, hIn, hFits⟩, rfl, fun i => ⟨fun hi hWidth => ?narrow, fun hi hWidth => ?wide,
    parsed_recs_of_le⟩⟩
  case narrow => exact (congrArg BitVec.toNat (parsed_recs_of_lt hi)).trans (toNat_fieldValue_narrow hWidth)
  case wide => exact (congrArg BitVec.toNat (parsed_recs_of_lt hi)).trans (toNat_fieldValue_wide hWidth)

/-- Settles O38: the second state passes the same checks, and its fields lie inside the record the two states share. -/
theorem parseReadsOnlyTheRecord : Obligations.ParseReadsOnlyTheRecord := by
  intro s s' t t' hAddr hLen hNdesc hDesc hRecs hRecord hExec hExec' hErr
  obtain ⟨hLegal, rfl⟩ := exec_parse_of_err_eq_false hExec hErr
  have hRecordByte : ∀ i < s.recSize, s.dmem.written (s.srcAddr + 71 + i) = true ∧
      s'.dmem.lookup (s.srcAddr + 71 + i) = s.dmem.lookup (s.srcAddr + 71 + i) := fun i hi =>
    hRecord _ (Nat.le_add_right _ _) (Nat.add_lt_add_left hi _)
  have hSame : SameRecord s s' :=
    ⟨congrArg BitVec.toNat hAddr, hDesc, fun i hi => (hRecordByte i hi).1, fun i hi => (hRecordByte i hi).2⟩
  have ht' : completeOk (parsed s') = t' :=
    next_inj ((exec_parse_legal (hLegal.congr hAddr hLen hNdesc hDesc)).symm.trans hExec')
  subst ht'
  refine ⟨hSame.parsed_recs_eq hLegal.descs hNdesc hRecs, rfl, ?_⟩
  rw [Nat.add_assoc]
  exact Nat.add_le_add_left hLegal.recordFits _

end Sys2Proof.Machine
end

section
/-! SUPPORT. The frame builder (44_frame_builder.md): the checks BUILD_ACK and PING_ECHO share, what each builder stages, and what
CRC_VERIFY and DECODE_HDR find in an acknowledgement just built. -/

namespace Sys2Proof.Machine

/-! ### The checks of a reply -/

theorem replyFits_iff (a n d m : Nat) : replyFits a n d m = true ↔ d + 8 = a ∨ ¬meets a n d m := by
  rw [replyFits, Bool.or_eq_true, decide_eq_true_iff, Bool.not_eq_true', overlaps_false_iff, meets]

theorem replyFits_false_iff (a n d m : Nat) : replyFits a n d m = false ↔ d + 8 ≠ a ∧ meets a n d m := by
  rw [← Bool.not_eq_true, replyFits_iff, not_or, not_not]

/-- The checks BUILD_ACK and PING_ECHO share, in their order, for a source of `n` bytes at `a` and a destination of `m` bytes at
`d` (44_frame_builder.md R173, R174). -/
def replyChecked (a n d m : Nat) (r : Staged) : Staged :=
  require (inRange a n) .badRange <| require (inRange d m) .badRange <| require (replyFits a n d m) .overlap r

section
variable {s : State} {a n d m : Nat} {r : Staged}

theorem finish_replyChecked_inside (hSrc : a + n ≤ 2048) (hDst : d + m ≤ 2048) :
    finish s (replyChecked a n d m r) = finish s (require (replyFits a n d m) .overlap r) :=
  (finish_require_pass ((inRange_iff _ _).mpr hSrc)).trans (finish_require_pass ((inRange_iff _ _).mpr hDst))

theorem finish_replyChecked_apart (hSrc : a + n ≤ 2048) (hDst : d + m ≤ 2048) (hApart : d + 8 = a ∨ ¬meets a n d m) :
    finish s (replyChecked a n d m r) = .next (complete s r) :=
  (finish_replyChecked_inside hSrc hDst).trans (finish_require_true ((replyFits_iff _ _ _ _).mpr hApart))

theorem finish_replyChecked_badRange (h : 2048 < a + n ∨ 2048 < d + m) :
    finish s (replyChecked a n d m r) = .next (raiseError .badRange s) := by
  by_cases hSrc : a + n ≤ 2048
  · have hDst := h.resolve_left (Nat.not_lt.mpr hSrc)
    exact (finish_require_pass ((inRange_iff _ _).mpr hSrc)).trans (finish_require_false ((inRange_false_iff _ _).mpr hDst))
  · exact finish_require_false ((inRange_false_iff _ _).mpr (Nat.lt_of_not_le hSrc))

theorem finish_replyChecked_overlap (hSrc : a + n ≤ 2048) (hDst : d + m ≤ 2048) (hNe : d + 8 ≠ a) (hMeets : meets a n d m) :
    finish s (replyChecked a n d m r) = .next (raiseError .overlap s) :=
  (finish_replyChecked_inside hSrc hDst).trans (finish_require_false ((replyFits_false_iff _ _ _ _).mpr ⟨hNe, hMeets⟩))

end

/-! ### Lengths in the registers' arithmetic -/

theorem ofNat_toNat_add (v : Half) (k : Nat) : BitVec.ofNat 16 (v.toNat + k) = v + BitVec.ofNat 16 k := by
  rw [BitVec.ofNat_add, BitVec.ofNat_toNat, BitVec.setWidth_eq]

/-- A sum that fits 16 bits does not wrap. -/
theorem toNat_add_ofNat {v : Half} {k : Nat} (h : v.toNat + k < 65536) : (v + BitVec.ofNat 16 k).toNat = v.toNat + k := by
  rw [← ofNat_toNat_add, BitVec.toNat_ofNat, Nat.mod_eq_of_lt h]

/-! ### What the builders stage -/

/-- What BUILD_HDR stages once its check has passed (44_frame_builder.md R171). -/
def headerBuilt (s : State) : State :=
  { s with
    dmem := s.dmem.storeBytes s.dstAddr (hdrImage s s.lenA)
    outLen := 8#16 }

/-- The checksum of an acknowledgement's header and body (44_frame_builder.md R173). -/
def ackCrc (s : State) : Half := crc16 s.tbl Config.crcInit (ackFrame s)

/-- What BUILD_ACK stages once its checks have passed (44_frame_builder.md R173). -/
def acknowledged (s : State) : State :=
  { s with
    dmem := s.dmem.storeBytes s.dstAddr (ackFrame s ++ crcBytes s.crcOrder (ackCrc s))
    crcResult := ackCrc s
    outLen := s.lenA + 10#16
    draws := s.draws + 1 }

/-- The bytes of a ping's reply: the header with the length received, and the payload (44_frame_builder.md R174). -/
def echoFrame (s : State) : List Byte := hdrImage s s.hdrLen ++ memRead s 0 s.srcAddr (s.hdrLen.toNat - 2)

/-- What PING_ECHO stages once its checks have passed (44_frame_builder.md R174). -/
def echoed (s : State) : State :=
  { s with
    dmem := s.dmem.storeBytes s.dstAddr (echoFrame s)
    outLen := s.hdrLen + 6#16
    draws := s.draws + 1 }

theorem hdrImage_eq (s : State) (len : Half) :
    hdrImage s len = [hiByte s.hdrTid, loByte s.hdrTid, hiByte s.hdrProto, loByte s.hdrProto, hiByte len, loByte len,
      s.hdrUnit, s.hdrMsgid] := rfl

/-- The length an acknowledgement declares, in the registers' own arithmetic (44_frame_builder.md R173). -/
theorem ackFrame_eq (s : State) :
    ackFrame s = hdrImage s (s.lenA + 2#16) ++ memRead s 0 s.srcAddr s.srcLen := by
  rw [ackFrame, State.srcLen, ofNat_toNat_add]

theorem echoFrame_length {s : State} (hMin : 2 ≤ s.hdrLen.toNat) : (echoFrame s).length = s.hdrLen.toNat + 6 := by
  rw [echoFrame, List.length_append, hdrImage_length, memRead_length]
  omega

theorem exec_buildHdr_inside {s : State} (h : s.dstAddr + 8 ≤ 2048) :
    exec .buildHdr s = .next (completeOk (headerBuilt s)) :=
  finish_require_true ((inRange_iff _ _).mpr h)

/-- BUILD_ACK is the checks of a reply of LEN_A + 10 bytes, then its writes (44_frame_builder.md R173). -/
theorem exec_buildAck_eq (s : State) :
    exec .buildAck s = finish s (replyChecked s.srcAddr s.srcLen s.dstAddr (s.srcLen + 10) (.ok (acknowledged s))) := by
  rw [acknowledged, ← ofNat_toNat_add]
  rfl

/-- For a length of at least 2, PING_ECHO is the checks of a reply of HDR_LEN + 6 bytes, then its writes
(44_frame_builder.md R174). -/
theorem exec_pingEcho_eq {s : State} (hMin : 2 ≤ s.hdrLen.toNat) :
    exec .pingEcho s = finish s
      (replyChecked s.srcAddr (s.hdrLen.toNat - 2) s.dstAddr (s.hdrLen.toNat + 6) (.ok (echoed s))) := by
  have hReply : s.hdrLen.toNat + 6 = s.hdrLen.toNat - 2 + 8 := by omega
  rw [echoed, ← ofNat_toNat_add, hReply]
  exact finish_require_pass (decide_eq_true hMin)

theorem exec_pingEcho_badLength {s : State} (h : s.hdrLen.toNat < 2) :
    exec .pingEcho s = .next (raiseError .badLength s) :=
  finish_require_false (decide_eq_false (Nat.not_le.mpr h))

/-- A BUILD_ACK that ends without an error has written its whole reply inside DMEM. -/
theorem exec_buildAck_of_err_eq_false {s t : State} (h : exec .buildAck s = .next t) (hErr : t.err = false) :
    s.dstAddr + (s.srcLen + 10) ≤ 2048 ∧ t = completeOk (acknowledged s) := by
  rcases execBuildAck_cases h with ⟨hSrc, hDst, hFits, -⟩ | ⟨-, rfl⟩ | ⟨-, rfl⟩
  · rw [inRange_iff] at hSrc hDst
    have hEnd : exec .buildAck s = .next (completeOk (acknowledged s)) :=
      (exec_buildAck_eq s).trans (finish_replyChecked_apart hSrc hDst ((replyFits_iff _ _ _ _).mp hFits))
    exact ⟨hDst, next_inj (h.symm.trans hEnd)⟩
  all_goals exact absurd hErr (by simp)

/-! ### A frame just built -/

/-- A sequence stands in DMEM as its first part, then its second. -/
theorem holdsBytes_append {m : Memory} {a : Nat} {bs bs' : List Byte} (h : holdsBytes m a (bs ++ bs')) :
    holdsBytes m a bs ∧ holdsBytes m (a + bs.length) bs' := by
  refine ⟨fun i hi => ?front, fun i hi => ?back⟩
  case front => rw [h i (by simp; omega), List.getElem?_append_left hi]
  case back =>
    rw [Nat.add_assoc, h (bs.length + i) (by simpa using hi), List.getElem?_append_right (Nat.le_add_right _ _),
      Nat.add_sub_cancel_left]

/-- `s` after a BUILD_ACK, with the header and the body of the frame as the operands of the next command. -/
def overAck (s : State) : State := { completeOk (acknowledged s) with addrA := s.addrD, lenA := s.lenA + 8#16 }

theorem overAck_srcLen {s : State} (hDst : s.dstAddr + (s.srcLen + 10) ≤ 2048) : (overAck s).srcLen = s.srcLen + 8 := by
  have hFits : s.srcLen + 8 < 65536 := by omega
  exact toNat_add_ofNat hFits

theorem holdsBytes_overAck_frame (s : State) : holdsBytes (overAck s).dmem s.dstAddr (ackFrame s) :=
  (holdsBytes_append (holdsBytes_storeBytes s.dmem s.dstAddr _)).1

theorem holdsBytes_overAck_checksum (s : State) :
    holdsBytes (overAck s).dmem (s.dstAddr + (ackFrame s).length) (crcBytes s.crcOrder (ackCrc s)) :=
  (holdsBytes_append (holdsBytes_storeBytes s.dmem s.dstAddr _)).2

/-- The checksum of the frame's header and body, read back, is the one BUILD_ACK computed. -/
theorem rangeCrc_overAck {s : State} (hDst : s.dstAddr + (s.srcLen + 10) ≤ 2048) :
    rangeCrc false (overAck s) = ackCrc s := by
  have hLen : (ackFrame s).length = (overAck s).srcLen := by rw [ackFrame_length, overAck_srcLen hDst, Nat.add_comm]
  exact rangeCrc_of_holdsBytes false hLen (holdsBytes_overAck_frame s)

/-- The two bytes CRC_VERIFY finds behind the frame are the ones it expects (40_checksum.md R105). -/
theorem memRead_overAck_checksum {s : State} (hDst : s.dstAddr + (s.srcLen + 10) ≤ 2048) :
    memRead (overAck s) 1 ((overAck s).srcAddr + (overAck s).srcLen) 2 =
      crcBytes (overAck s).crcOrder (rangeCrc false (overAck s)) := by
  have hChecksum := holdsBytes_overAck_checksum s
  rw [ackFrame_length, Nat.add_comm 8, ← overAck_srcLen hDst] at hChecksum
  rw [rangeCrc_overAck hDst]
  exact readBytes_of_holdsBytes hChecksum (crcBytes_length _ _) _

/-- The header bytes DECODE_HDR reads in the frame are the image BUILD_ACK wrote. -/
theorem headerBytes_overAck (s : State) : headerBytes (overAck s) = hdrImage s (s.lenA + 2#16) := by
  have hFrame := holdsBytes_overAck_frame s
  rw [ackFrame_eq] at hFrame
  exact readBytes_of_holdsBytes (holdsBytes_append hFrame).1 (hdrImage_length _ _) _

/-! ### The header image read back -/

/-- A 16-bit value is its two bytes, most significant first (20_memory.md R65). -/
theorem ofNat_hiByte_loByte (v : Half) : BitVec.ofNat 16 ((hiByte v).toNat * 256 + (loByte v).toNat) = v := by
  apply BitVec.eq_of_toNat_eq
  simp only [hiByte, loByte, BitVec.extractLsb'_toNat, BitVec.toNat_ofNat, Nat.shiftRight_eq_div_pow]
  omega

/-- The decoder's fields undo the builders' header image (41_frame_decoder.md R120, 44_frame_builder.md R170). -/
theorem headerDecoded_of_hdrImage {s t : State} {len : Half} (h : headerBytes t = hdrImage s len) :
    (headerDecoded t).hdrTid = s.hdrTid ∧ (headerDecoded t).hdrProto = s.hdrProto ∧ (headerDecoded t).hdrLen = len ∧
      (headerDecoded t).hdrUnit = s.hdrUnit ∧ (headerDecoded t).hdrMsgid = s.hdrMsgid := by
  simp only [headerDecoded, h, hdrImage_eq]
  exact ⟨ofNat_hiByte_loByte _, ofNat_hiByte_loByte _, ofNat_hiByte_loByte _, rfl, rfl⟩

/-! ### The settled statements -/

/-- Settles O39: the destination range is the command's only check, and the header image its only write to DMEM. -/
theorem buildHdrWritesTheHeader : Obligations.BuildHdrWritesTheHeader := by
  refine ⟨decode_encode .buildHdr, fun s => ⟨fun hIn => ⟨_, exec_buildHdr_inside hIn, rfl, ?bytes, ?frame⟩,
    fun hOut => finish_require_false ((inRange_false_iff _ _).mpr hOut)⟩⟩
  case bytes => exact holdsBytes_storeBytes s.dmem s.dstAddr (hdrImage s s.lenA)
  case frame => exact sameOutside_storeBytes s.dmem s.dstAddr (hdrImage s s.lenA)

/-- Settles O40: the three checks in order, then the one write to DMEM is the frame with its checksum. -/
theorem buildAckWritesTheFrame : Obligations.BuildAckWritesTheFrame := by
  refine ⟨decode_encode .buildAck, fun s => ?_⟩
  intro a d n len f c
  have hFrame : ackFrame s = f := ackFrame_eq s
  have hCrc : ackCrc s = c := congrArg (crc16 s.tbl Config.crcInit) hFrame
  refine ⟨fun hSrc hDst hApart => ⟨completeOk (acknowledged s),
      (exec_buildAck_eq s).trans (finish_replyChecked_apart hSrc hDst hApart), ?result, ?bytes, ?outside, ?declared, ?outLen⟩,
    fun hOut => (exec_buildAck_eq s).trans (finish_replyChecked_badRange hOut),
    fun hSrc hDst hNe hMeets => (exec_buildAck_eq s).trans (finish_replyChecked_overlap hSrc hDst hNe hMeets)⟩
  case result => rw [← hCrc]; rfl
  case bytes =>
    rw [← hFrame, ← hCrc]
    exact holdsBytes_storeBytes s.dmem d (ackFrame s ++ crcBytes s.crcOrder (ackCrc s))
  case outside =>
    have hOutside := sameOutside_storeBytes s.dmem d (ackFrame s ++ crcBytes s.crcOrder (ackCrc s))
    rwa [List.length_append, ackFrame_length, crcBytes_length, Nat.add_right_comm, Nat.add_comm] at hOutside
  case declared => exact toNat_add_ofNat (by omega)
  case outLen => exact toNat_add_ofNat (by omega)

/-- Settles O41: the length check, then the three checks of a reply, then the one write to DMEM is header and payload. -/
theorem pingEchoRepeatsThePayload : Obligations.PingEchoRepeatsThePayload := by
  refine ⟨decode_encode .pingEcho, fun s => ?_⟩
  intro a d len
  refine ⟨fun hMin hSrc hDst hApart => ⟨completeOk (echoed s),
      (exec_pingEcho_eq hMin).trans (finish_replyChecked_apart hSrc hDst hApart), rfl, ?bytes, ?outside, ?outLen⟩,
    exec_pingEcho_badLength,
    fun hMin hOut => (exec_pingEcho_eq hMin).trans (finish_replyChecked_badRange hOut),
    fun hMin hSrc hDst hNe hMeets => (exec_pingEcho_eq hMin).trans (finish_replyChecked_overlap hSrc hDst hNe hMeets)⟩
  case bytes => exact holdsBytes_storeBytes s.dmem d (echoFrame s)
  case outside => exact echoFrame_length hMin ▸ sameOutside_storeBytes s.dmem d (echoFrame s)
  case outLen => exact toNat_add_ofNat (by omega)

/-- Settles O42: header and body read back as written, so their checksum is the one that stands behind them. -/
theorem acknowledgementVerifies : Obligations.AcknowledgementVerifies := by
  intro s t hBuilt hErr
  obtain ⟨hDst, rfl⟩ := exec_buildAck_of_err_eq_false hBuilt hErr
  have hRoom : (overAck s).srcAddr + ((overAck s).srcLen + 2) ≤ 2048 := by rwa [overAck_srcLen hDst]
  have hMatch := (crcMatchFlag_iff _ _).mpr (memRead_overAck_checksum hDst)
  exact ⟨_, exec_crcVerify_inside false hRoom, rfl, hMatch, rangeCrc_overAck hDst⟩

/-- Settles O43: the decoder reads the header image back, and LEN_A + 2 is the length of a frame of which nothing is missing. -/
theorem acknowledgementDecodesBack : Obligations.AcknowledgementDecodesBack := by
  intro s t hBuilt hErr (hMin : 1 ≤ s.srcLen) (hMax : s.srcLen + 8 ≤ 300)
  obtain ⟨hDst, rfl⟩ := exec_buildAck_of_err_eq_false hBuilt hErr
  have hLen := overAck_srcLen hDst
  obtain ⟨hTid, hProto, hHdrLen, hUnit, hMsgid⟩ := headerDecoded_of_hdrImage (headerBytes_overAck s)
  have hDeclared : (headerDecoded (overAck s)).hdrLen.toNat = s.srcLen + 2 := by
    have hFits : s.srcLen + 2 < 65536 := by omega
    rw [hHdrLen]
    exact toNat_add_ofNat hFits
  have hRun : exec .decodeHdr (overAck s) = .next (completeOk (headerDecoded (overAck s))) := by
    refine exec_decodeHdr_inside (by omega) (by omega) ?_
    rw [hLen]
    exact Nat.le_trans (Nat.add_le_add_left (by omega) _) hDst
  have hComplete : (headerDecoded (overAck s)).bodyComplete = true := (headerDecoded_bodyComplete_iff _).mpr (by omega)
  have hNeed : (headerDecoded (overAck s)).bodyNeed.toNat = 0 := by
    rw [toNat_headerDecoded_bodyNeed]
    omega
  exact ⟨_, hRun, rfl, hTid, hProto, hUnit, hMsgid, hDeclared, hComplete, BitVec.eq_of_toNat_eq hNeed⟩

end Sys2Proof.Machine
end

section
/-! SUPPORT. The life of a command (45_control.md R190 to R195): the CMD write that issues it, the Engine's step that runs it, and
the completion that ends it. -/

namespace Sys2Proof.Machine

/-! ### Issue -/

/-- While idle, a write to a register the Host may write is `writeReg` (10_state.md R52, 45_control.md R190). -/
theorem hostWriteReg_idle {r : RegName} {s : State} (hr : regAccess r ≠ .readOnly) (hs : s.busy = false) (v : Word) :
    hostWriteReg r v s = writeReg r v s := by
  simp [hostWriteReg, hr, hs]

/-- While a command is pending, such a write is a hazard and what it writes is free (70_reset_and_hazards.md R235). -/
theorem hostWriteReg_busy {r : RegName} {s : State} (hr : regAccess r ≠ .readOnly) (hs : s.busy = true) (v : Word) :
    hostWriteReg r v s = hazard (writeReg r (freshWord s 0) s) := by
  simp [hostWriteReg, hr, hs]

/-- Settles O7: the offset is CMD's, where an idle write is an issue and one while BUSY a hazard. -/
theorem cmdWriteIssuesTheCommand : Obligations.CmdWriteIssuesTheCommand := by
  intro s w t
  have ht : t = hostWriteReg .cmd w s := hostAccess_writeAccess .cmd w s
  have hCmd : regAccess .cmd ≠ .readOnly := by decide
  refine ⟨fun hs => ?idle, fun hs => ?busy⟩
  case idle => exact ht.trans (hostWriteReg_idle hCmd hs w)
  case busy => rw [ht, hostWriteReg_busy hCmd hs, hazard_faultHostHazard]

/-! ### Completion -/

/-- Completion clears BUSY, with and without an error (45_control.md R192). -/
theorem complete_busy (s : State) (r : Staged) : (complete s r).busy = false := by
  cases r <;> rfl

theorem complete_done (s : State) (r : Staged) : (complete s r).done = true := by
  cases r <;> rfl

/-- ERR is tied to ERRCODE, as no error has the code 0x00 (45_control.md R192, 60_exceptions.md R200). -/
theorem complete_err_iff (s : State) (r : Staged) : (complete s r).err = true ↔ (complete s r).errcode ≠ 0x00#8 := by
  cases r with
  | ok t => simp
  | error e => simp [errCode_ne_zero e]

/-- Settles O9: every command ends with a completion of some staged result. -/
theorem everyCommandCompletes : Obligations.EveryCommandCompletes := by
  intro i s
  obtain ⟨r, hExec⟩ := exec_complete i s
  exact ⟨complete s r, hExec, complete_busy s r, complete_done s r, complete_err_iff s r⟩

/-- Settles O18: the two words are rows of the opcode map, and NOP stages nothing. -/
theorem nopOnlyCompletes : Obligations.NopOnlyCompletes := by
  refine ⟨decode_encode .nop, by decide, fun s => ?_⟩
  calc exec .nop s
      = finish s (.ok s) := rfl
    _ = .next (completeOk s) := finish_eq s (.ok s)

/-! ### The Engine's step -/

theorem busy_of_pending {s : State} {w : Word} (h : s.pending = some w) : s.busy = true := by
  simp [State.busy, h]

/-- A pending command enables the Engine, before READY = 1 for the table build and then for the command itself
(45_control.md R191, R194). -/
theorem engineEnabled_of_busy {s : State} (hs : s.busy = true) : engineEnabled s = true := by
  simp [engineEnabled, hs]

/-- With no turn laid down, an enabled Engine moves first (45_control.md R195; assumption log 1). -/
theorem step_eq_engineStep {s : State} (hEnabled : engineEnabled s = true) (hTurns : s.turns = []) :
    step s = engineStep s := by
  simp [step, advance, hTurns, hEnabled]

/-- On its own turn, an enabled Engine moves at the state with that turn taken off (45_control.md R195). -/
theorem step_eq_engineStep_of_turn {s : State} {rest : List Turn} (hEnabled : engineEnabled s = true)
    (hTurns : s.turns = .engine :: rest) : step s = engineStep { s with turns := rest } := by
  simp [step, advance, hTurns, hEnabled]

/-- Before READY = 1 the Engine builds the table (45_control.md R194, 70_reset_and_hazards.md R232). -/
theorem engineStep_not_ready {s : State} (hInit : s.initDone = false) : engineStep s = .next (buildTable s) := by
  simp [engineStep, hInit]

theorem engineStep_eq_runWord {s : State} {w : Word} (hInit : s.initDone = true) (hPending : s.pending = some w)
    (hTainted : s.tainted = false) : engineStep s = runWord w s := by
  simp [engineStep, hInit, hPending, hTainted]

theorem engineStep_eq_completeTainted {s : State} {w : Word} (hInit : s.initDone = true) (hPending : s.pending = some w)
    (hTainted : s.tainted = true) : engineStep s = .next (completeTainted s) := by
  simp [engineStep, hInit, hPending, hTainted]

/-- Settles O6: both ways the Engine comes to move, it runs the pending word, which is that command's. -/
theorem stepRunsTheDecodedCommand : Obligations.StepRunsTheDecodedCommand := by
  intro s w i hInit hPending hTainted hDecode
  refine ⟨fun hTurns => ?noTurn, fun rest hTurns => ?ownTurn⟩
  case noTurn =>
    calc step s
        = runWord w s := step_eq_runWord hInit hPending hTainted hTurns
      _ = exec i s := runWord_command hDecode s
  case ownTurn =>
    have hEnabled : engineEnabled s = true := engineEnabled_of_busy (busy_of_pending hPending)
    calc step s
        = engineStep { s with turns := rest } := step_eq_engineStep_of_turn hEnabled hTurns
      _ = runWord w { s with turns := rest } := engineStep_eq_runWord hInit hPending hTainted
      _ = exec i { s with turns := rest } := runWord_command hDecode _

/-! ### A pending command completes -/

/-- A command word, legal or not, ends with a completion (45_control.md R192, 30_encoding.md R90). -/
theorem runWord_complete (w : Word) (s : State) : ∃ r : Staged, runWord w s = .next (complete s r) := by
  cases hDecode : decode w with
  | command i =>
    rw [runWord_command hDecode]
    exact exec_complete i s
  | illegal why => exact ⟨.error .badOpcode, runWord_illegal hDecode s⟩

/-- Once the table is built, the Engine's step completes the pending command, also one whose result a HOST_HAZARD made free
(45_control.md R192, 70_reset_and_hazards.md R235). -/
theorem engineStep_completes {s : State} (hInit : s.initDone = true) (hs : s.busy = true) :
    ∃ t, engineStep s = .next t ∧ t.done = true ∧ t.busy = false := by
  obtain ⟨w, hPending⟩ : ∃ w, s.pending = some w := Option.isSome_iff_exists.mp hs
  cases hTainted : s.tainted with
  | true => exact ⟨completeTainted s, engineStep_eq_completeTainted hInit hPending hTainted, rfl, rfl⟩
  | false =>
    obtain ⟨r, hRun⟩ := runWord_complete w s
    exact ⟨complete s r, (engineStep_eq_runWord hInit hPending hTainted).trans hRun, complete_done s r, complete_busy s r⟩

/-- Settles O14: the command completes in the Engine's first step with the table built, which is the machine's first step, or
its second behind the table build. -/
theorem pendingCommandSoonCompletes : Obligations.PendingCommandSoonCompletes := by
  intro s hs hTurns
  have hStep : step s = engineStep s := step_eq_engineStep (engineEnabled_of_busy hs) hTurns
  refine ⟨fun hInit => ?ready, fun hInit => ?notReady⟩
  case ready =>
    rw [hStep]
    exact engineStep_completes hInit hs
  case notReady =>
    have hBuild : step s = .next (buildTable s) := hStep.trans (engineStep_not_ready hInit)
    have hBusy : (buildTable s).busy = true := hs
    have hSecond : step (buildTable s) = engineStep (buildTable s) :=
      step_eq_engineStep (engineEnabled_of_busy hBusy) hTurns
    obtain ⟨u, hEngine, hDone, hIdle⟩ := engineStep_completes (buildTable_initDone s) hBusy
    exact ⟨buildTable s, u, hBuild, hBusy, hSecond.trans hEngine, hDone, hIdle⟩

end Sys2Proof.Machine
end

section
/-! SUPPORT. Errors and model faults (60_exceptions.md): which errors a command can end with and what an error changes (R200 to
R202), that no step stops the machine (R204, R210), and that FAULTS only grows between resets (R210). -/

namespace Sys2Proof.Machine

/-! ### Errors -/

/-- Settles O10: the word ends with a completion, and a completion with ERR = 1 is an error taken. -/
theorem errorChangesOnlyErrcodeAndStatus : Obligations.ErrorChangesOnlyErrcodeAndStatus := by
  intro w s t h hErr
  obtain ⟨r, hRun⟩ := runWord_complete w s
  obtain rfl : complete s r = t := next_inj (hRun.symm.trans h)
  cases r with
  | ok u => exact absurd hErr (by simp)
  | error e => exact ⟨e, errCode_ne_zero e, raiseError_eq e s⟩

/-- The errors a staged result can be are all in `es`. -/
def RaisesOnly (es : List ErrCode) (r : Staged) : Prop := ∀ e, r = .error e → e ∈ es

theorem raisesOnly_ok (es : List ErrCode) (t : State) : RaisesOnly es (.ok t) :=
  fun _ h => nomatch h

/-- A check adds its own error to those of the rest (60_exceptions.md R202). -/
theorem RaisesOnly.require {es : List ErrCode} {e : ErrCode} {r : Staged} {ok : Bool} (hr : RaisesOnly es r)
    (he : e ∈ es := by simp [errorsOf]) : RaisesOnly es (require ok e r) := by
  rcases require_cases ok e r with ⟨-, h⟩ | ⟨-, h⟩ <;> rw [h]
  · exact hr
  · rintro _ ⟨⟩
    exact he

/-- Each command's checks, from the last to the first, raise errors of its own list only (60_exceptions.md R202). -/
theorem exec_raisesOnly (i : Instr) (s : State) :
    ∃ r : Staged, exec i s = .next (complete s r) ∧ RaisesOnly (errorsOf i) r := by
  have hOk := raisesOnly_ok (errorsOf i)
  cases i with
  | nop => exact ⟨_, rfl, hOk _⟩
  | crc c | crcAppend c | crcVerify c | classify | buildHdr => exact ⟨_, rfl, (hOk _).require⟩
  | decodeHdr | buildAck => exact ⟨_, rfl, (hOk _).require.require.require⟩
  | deobf | parse | pingEcho => exact ⟨_, rfl, (hOk _).require.require.require.require⟩

/-- Settles O11: the numbers are the table's; a command that raises nothing leaves 0x00, and what it raises is of its list. -/
theorem eachCommandHasItsErrorCodes : Obligations.EachCommandHasItsErrorCodes := by
  refine ⟨rfl, fun i s t h => ?_⟩
  obtain ⟨r, hExec, hRaises⟩ := exec_raisesOnly i s
  obtain rfl : complete s r = t := next_inj (hExec.symm.trans h)
  cases r with
  | ok u => exact .inl rfl
  | error e => exact .inr ⟨e, hRaises e rfl, rfl⟩

/-! ### No step stops the machine -/

theorem engineStep_idle {s : State} (hInit : s.initDone = true) (hPending : s.pending = none) :
    engineStep s = .next s := by
  simp [engineStep, hInit, hPending]

/-- The Engine always has a next state, also for an illegal word and for a result a HOST_HAZARD made free
(60_exceptions.md R204, R210). -/
theorem engineStep_next (s : State) : ∃ t, engineStep s = .next t := by
  cases hInit : s.initDone with
  | false => exact ⟨_, engineStep_not_ready hInit⟩
  | true =>
    cases hPending : s.pending with
    | none => exact ⟨s, engineStep_idle hInit hPending⟩
    | some w =>
      obtain ⟨t, hEngine, -⟩ := engineStep_completes hInit (busy_of_pending hPending)
      exact ⟨t, hEngine⟩

/-- Settles O17: the Host's step and the reset are total, and the Engine's step is by `engineStep_next`. -/
theorem noStepFaultsOrRefuses : Obligations.NoStepFaultsOrRefuses := by
  intro s
  unfold step advance
  cases s.turns with
  | nil =>
    dsimp only
    split
    · exact engineStep_next s
    · exact ⟨_, rfl⟩
  | cons turn rest =>
    cases turn with
    | host => exact ⟨_, rfl⟩
    | engine =>
      dsimp only
      split
      · exact engineStep_next _
      · exact ⟨_, rfl⟩
    | reset => exact ⟨_, rfl⟩

/-! ### FAULTS -/

/-- Every fault that is in FAULTS in `s` is in FAULTS in `t` (10_state.md R51). -/
def FaultsKept (s t : State) : Prop :=
  (s.faultBusMisuse = true → t.faultBusMisuse = true) ∧ (s.faultHostHazard = true → t.faultHostHazard = true)

theorem FaultsKept.refl (s : State) : FaultsKept s s := ⟨id, id⟩

theorem faultsKept_of_eq {s t : State} (hMisuse : t.faultBusMisuse = s.faultBusMisuse)
    (hHazard : t.faultHostHazard = s.faultHostHazard) : FaultsKept s t :=
  ⟨hMisuse.trans, hHazard.trans⟩

theorem faultsKept_writeReg (r : RegName) (v : Word) (s : State) : FaultsKept s (writeReg r v s) := by
  obtain ⟨-, -, -, -, -, -, -, -, -, -, hMisuse, hHazard, -⟩ := writeReg_frame r v s
  exact faultsKept_of_eq hMisuse hHazard

/-- A misuse records BUS_MISUSE and leaves HOST_HAZARD as it was (20_memory.md R64). -/
theorem faultsKept_misuse (acc : BusAccess) (s : State) : FaultsKept s (misuse acc s) := by
  rw [misuse_eq]
  exact ⟨fun _ => rfl, id⟩

/-- A hazard records HOST_HAZARD and leaves BUS_MISUSE as it was (70_reset_and_hazards.md R235). -/
theorem FaultsKept.hazard {s t : State} (h : FaultsKept s t) : FaultsKept s (hazard t) :=
  ⟨h.left, fun _ => hazard_faultHostHazard t⟩

theorem faultsKept_hostAccess (acc : BusAccess) (s : State) : FaultsKept s (hostAccess acc s) := by
  rcases hostAccess_cases acc s with h | ⟨v, h⟩ | h | ⟨r, v, -, -, h⟩ | ⟨r, v, -, -, h⟩ | ⟨a, v, -, -, h⟩ | ⟨a, v, -, -, h⟩ <;>
    rw [h]
  · exact faultsKept_misuse acc s
  · exact faultsKept_of_eq rfl rfl
  · exact .refl s
  · exact faultsKept_writeReg r v s
  · exact (faultsKept_writeReg r v s).hazard
  · exact faultsKept_of_eq rfl rfl
  · exact (faultsKept_of_eq (t := { s with dmem := s.dmem.store a v }) rfl rfl).hazard

theorem faultsKept_hostStep (s : State) : FaultsKept s (hostStep s) := by
  rcases hostStep_cases s with h | ⟨acc, -, h⟩ | ⟨pc, h⟩ <;> rw [h]
  · exact .refl s
  · exact faultsKept_hostAccess acc s
  · exact .refl s

/-- No command has FAULTS among its results (30_encoding.md R86). -/
theorem faultsKept_exec {i : Instr} {s t : State} (h : exec i s = .next t) : FaultsKept s t := by
  obtain ⟨-, -, -, ⟨hMisuse, hHazard, -⟩, -⟩ := commandsLeaveOperandsAlone i s t h
  exact faultsKept_of_eq hMisuse hHazard

theorem faultsKept_engineStep {s t : State} (h : engineStep s = .next t) : FaultsKept s t := by
  rcases engineStep_cases h with ⟨-, rfl⟩ | ⟨-, -, rfl⟩ | ⟨-, -, rfl⟩ | ⟨w, i, -, -, -, hExec⟩ | ⟨w, why, -, -, -, rfl⟩
  · exact faultsKept_of_eq rfl rfl
  · exact .refl _
  · exact faultsKept_of_eq rfl rfl
  · exact faultsKept_exec hExec
  · exact faultsKept_of_eq rfl rfl

/-- Settles O52: using up a turn leaves FAULTS as it was, and then the Host or the Engine moves, both of which only record
faults. -/
theorem faultsAreNeverCleared : Obligations.FaultsAreNeverCleared := by
  intro s t hNoReset hStep
  obtain ⟨u, hu, hAgent⟩ := step_cases hStep
  have hTurn : FaultsKept s u := by rcases hu with rfl | rfl <;> exact faultsKept_of_eq rfl rfl
  have hMove : FaultsKept u t := by
    rcases hAgent with rfl | ⟨-, hEngine⟩ | rfl | ⟨hReset, -⟩
    · exact faultsKept_hostStep u
    · exact faultsKept_engineStep hEngine
    · exact .refl t
    · exact absurd hReset hNoReset
  exact ⟨hMove.left ∘ hTurn.left, hMove.right ∘ hTurn.right⟩

end Sys2Proof.Machine
end

section
/-! SUPPORT. The platform's reset, the table build behind it, and the Host writes that are hazards (70_reset_and_hazards.md
R230 to R235). -/

namespace Sys2Proof.Machine

/-! ### Reset -/

/-- Settles O57: each clause speaks of reset values only. -/
theorem resetHasTheInvariant : Obligations.ResetHasTheInvariant := stepInv_reset

/-- On the platform's turn the instance is reset, whatever is pending (70_reset_and_hazards.md R231). -/
theorem step_eq_platformReset {s : State} {rest : List Turn} (hTurns : s.turns = .reset :: rest) :
    step s = .next (platformReset { s with turns := rest }) := by
  simp only [step, advance, hTurns]

/-- Settles O55: the platform's turn is a reset, which takes only the Host's fields, the tape and the draw counter over. -/
theorem resetDiscardsThePendingCommand : Obligations.ResetDiscardsThePendingCommand :=
  fun _ _ hTurns => step_eq_platformReset hTurns

theorem reset_recSize : State.reset.recSize = 0 := by
  simp [State.recSize, State.descInUse, State.reset]

theorem readReg_reset_desc (i : Fin 64) : readReg State.reset (.desc i) = 0#32 := by
  simp [readReg, State.reset]

theorem readReg_reset_recEntry (i : Fin 64) : readReg State.reset (.recEntry i) = 0#32 := by
  simp [readReg, State.reset]

/-- The registers whose reset value is 0, but STATUS, the key words, DESC and REC (10_state.md R23). -/
theorem readReg_reset_eq_zero {r : RegName} (hr : r ∈ ([.cmd, .errcode, .addrA, .lenA, .addrD, .config, .kind, .outLen,
    .bodyNeed, .hdrTid, .hdrProto, .hdrLen, .hdrUnit, .hdrMsgid, .ndesc, .recSize] : List RegName)) :
    readReg State.reset r = 0#32 := by
  cases r with
  | recSize => rw [readReg, reset_recSize]
  | cmd | errcode | addrA | lenA | addrD | config | kind | outLen | bodyNeed | hdrTid | hdrProto | hdrLen | hdrUnit
  | hdrMsgid | ndesc => rfl
  | _ => simp at hr

/-- Settles O54: each register's reset value is its field's, zero-extended; no byte of an empty DMEM is written. -/
theorem resetLeavesTheStatedValues : Obligations.ResetLeavesTheStatedValues :=
  ⟨rfl, rfl, fun _ => readReg_reset_eq_zero, rfl, rfl, rfl, rfl, rfl, rfl, readReg_reset_desc, readReg_reset_recEntry, rfl,
    rfl, rfl, rfl, ⟨rfl, rfl⟩, fun _ => rfl⟩

/-! ### The table build -/

/-- `t` has the table of `s`, and READY as in `s` (10_state.md R49, R51). -/
def TableKept (s t : State) : Prop := t.tbl = s.tbl ∧ t.initDone = s.initDone

theorem tableKept_writeReg (r : RegName) (v : Word) (s : State) : TableKept s (writeReg r v s) := by
  obtain ⟨-, -, -, -, -, -, -, hTbl, hInit, -⟩ := writeReg_frame r v s
  exact ⟨hTbl, hInit⟩

theorem tableKept_misuse (acc : BusAccess) (s : State) : TableKept s (misuse acc s) := by
  rw [misuse_eq]
  exact ⟨rfl, rfl⟩

/-- TBL is read-only to the Host (10_state.md R23). -/
theorem tableKept_hostAccess (acc : BusAccess) (s : State) : TableKept s (hostAccess acc s) := by
  rcases hostAccess_cases acc s with h | ⟨v, h⟩ | h | ⟨r, v, -, -, h⟩ | ⟨r, v, -, -, h⟩ | ⟨a, v, -, -, h⟩ | ⟨a, v, -, -, h⟩ <;>
    rw [h]
  · exact tableKept_misuse acc s
  · exact ⟨rfl, rfl⟩
  · exact ⟨rfl, rfl⟩
  · exact tableKept_writeReg r v s
  · exact tableKept_writeReg r v s
  · exact ⟨rfl, rfl⟩
  · exact ⟨rfl, rfl⟩

theorem tableKept_hostStep (s : State) : TableKept s (hostStep s) := by
  rcases hostStep_cases s with h | ⟨acc, -, h⟩ | ⟨pc, h⟩ <;> rw [h]
  · exact ⟨rfl, rfl⟩
  · exact tableKept_hostAccess acc s
  · exact ⟨rfl, rfl⟩

/-- No command has TBL or READY among its results (30_encoding.md R86). -/
theorem tableKept_exec {i : Instr} {s t : State} (h : exec i s = .next t) : TableKept s t := by
  obtain ⟨-, -, hTable, -⟩ := commandsLeaveOperandsAlone i s t h
  exact hTable

/-- Once READY = 1 the Engine does not build the table again (70_reset_and_hazards.md R232). -/
theorem tableKept_engineStep {s t : State} (hInit : s.initDone = true) (h : engineStep s = .next t) : TableKept s t := by
  rcases engineStep_cases h with ⟨hNot, -⟩ | ⟨-, -, rfl⟩ | ⟨-, -, rfl⟩ | ⟨w, i, -, -, -, hExec⟩ | ⟨w, why, -, -, -, rfl⟩
  · exact absurd (hInit.symm.trans hNot) (by decide)
  · exact ⟨rfl, rfl⟩
  · exact ⟨rfl, rfl⟩
  · exact tableKept_exec hExec
  · exact ⟨rfl, rfl⟩

/-- Using up a turn leaves the table as it was, and then the Host or the Engine moves. -/
theorem tableKept_step {s t : State} (hInit : s.initDone = true) (hNoReset : s.turns.head? ≠ some .reset)
    (hStep : step s = .next t) : TableKept s t := by
  obtain ⟨u, hu, hAgent⟩ := step_cases hStep
  obtain ⟨hTbl, hReady⟩ : TableKept s u := by rcases hu with rfl | rfl <;> exact ⟨rfl, rfl⟩
  have hMove : TableKept u t := by
    rcases hAgent with rfl | ⟨-, hEngine⟩ | rfl | ⟨hReset, -⟩
    · exact tableKept_hostStep u
    · exact tableKept_engineStep (hReady.trans hInit) hEngine
    · exact ⟨rfl, rfl⟩
    · exact absurd hReset hNoReset
  exact ⟨hMove.left.trans hTbl, hMove.right.trans hReady⟩

/-- Before READY = 1 the table build is enabled (70_reset_and_hazards.md R232). -/
theorem engineEnabled_not_ready {s : State} (hInit : s.initDone = false) : engineEnabled s = true := by
  simp [engineEnabled, hInit]

theorem statusWord_ready (s : State) : (statusWord s).getLsbD 0 = s.initDone := getLsbD_statusWord s 0

/-- Settles O8: before READY = 1 the Engine is enabled and builds the table; afterwards every agent but the platform keeps
it. -/
theorem tableIsBuiltOnceBeforeAnyCommand : Obligations.TableIsBuiltOnceBeforeAnyCommand := by
  refine ⟨fun s hInit hTurns => ?noTurn, fun s rest hInit hTurns => ?ownTurn, fun s t hInit hNoReset hStep => ?kept⟩
  case noTurn =>
    have hBuild : step s = .next (buildTable s) :=
      (step_eq_engineStep (engineEnabled_not_ready hInit) hTurns).trans (engineStep_not_ready hInit)
    exact ⟨hBuild, buildTable s, hBuild, (statusWord_ready _).trans (buildTable_initDone s)⟩
  case ownTurn =>
    exact (step_eq_engineStep_of_turn (engineEnabled_not_ready hInit) hTurns).trans (engineStep_not_ready hInit)
  case kept =>
    obtain ⟨hTbl, hReady⟩ := tableKept_step hInit hNoReset hStep
    exact ⟨hTbl, hReady.trans hInit⟩

/-! ### Hazards -/

/-- A 32-bit write whose offset is a register's is the write of that register (20_memory.md R62). -/
theorem eq_writeAccess {acc : BusAccess} {r : RegName} {v : Word} (hValue : acc.value = some v) (hWidth : acc.width = 32)
    (hOff : acc.offset.toNat = regOffset r) : acc = writeAccess r v := by
  obtain ⟨off, width, value⟩ := acc
  obtain rfl : off = BitVec.ofNat 13 (regOffset r) := BitVec.eq_of_toNat_eq (hOff.trans (toNat_ofNat_regOffset r).symm)
  subst hValue hWidth
  rfl

/-- What a hazard changes, in a state that has made `n` draws (70_reset_and_hazards.md R235). -/
theorem hazard_eq_of_draws {s : State} {n : Nat} (h : s.draws = n) :
    hazard s = { s with faultHostHazard := true, tainted := true, draws := n + 1 } := by
  subst h
  rfl

theorem hostWriteByte_busy {s : State} (hs : s.busy = true) {x : Nat} (hx : x < 2048) (v : Byte) :
    hostWriteByte x v s = hazard { s with dmem := s.dmem.store x ((Config.freeWord s.tape s.draws).setWidth 8) } := by
  simp [hostWriteByte, hs, hx, freshWord_eq]

/-- No register write ends a pending command: a CMD write puts another word in its place. -/
theorem writeReg_keeps_busy {s : State} (hs : s.busy = true) (r : RegName) (v : Word) : (writeReg r v s).busy = true := by
  cases r with
  | cmd => rfl
  | _ => exact hs

/-- While a command is pending, a write of a register the Host may write is a hazard: the register takes a free value. -/
theorem hostAccess_writeAccess_busy {r : RegName} {s : State} (hr : regAccess r ≠ .readOnly) (hs : s.busy = true)
    (v : Word) : hostAccess (writeAccess r v) s =
      { writeReg r (Config.freeWord s.tape s.draws) s with
        faultHostHazard := true, tainted := true, draws := s.draws + 1 } := by
  obtain ⟨-, -, -, -, -, -, -, -, -, -, -, -, -, hDraws, -⟩ := writeReg_frame r (Config.freeWord s.tape s.draws) s
  calc hostAccess (writeAccess r v) s
      = hostWriteReg r v s := hostAccess_writeAccess r v s
    _ = hazard (writeReg r (Config.freeWord s.tape s.draws) s) := hostWriteReg_busy hr hs v
    _ = _ := hazard_eq_of_draws hDraws

/-- While a command is pending, a byte write in DMEM is a hazard: the byte takes a free value. -/
theorem hostAccess_byte_busy {acc : BusAccess} {s : State} {v : Word} (hValue : acc.value = some v) (hWidth : acc.width = 8)
    (hFrom : 0x1000 ≤ acc.offset.toNat) (hBelow : acc.offset.toNat < 0x1800) (hs : s.busy = true) : hostAccess acc s =
      hazard { s with
        dmem := s.dmem.store (acc.offset.toNat - 0x1000) ((Config.freeWord s.tape s.draws).setWidth 8) } := by
  have hx : acc.offset.toNat - 0x1000 < 2048 := by omega
  calc hostAccess acc s
      = byteAccess acc s := hostAccess_dmemPart hFrom hWidth s
    _ = hostWriteByte (acc.offset.toNat - 0x1000) (v.setWidth 8) s := by rw [byteAccess, hValue]
    _ = _ := hostWriteByte_busy hs hx _

/-- Every 3-bit code is a kind's (10_state.md R32). -/
theorem code_ofCode (c : BitVec 3) : (MessageKind.ofCode c).code = c := by
  revert c
  decide

/-- Settles O51: the busy write of a register or of a byte is a hazard, which leaves a command pending, and the Engine ends a
command so marked with `completeTainted`. -/
theorem writeWhileBusyIsAHazard : Obligations.WriteWhileBusyIsAHazard := by
  refine ⟨fun s acc v hs hValue => ⟨fun r hr hWidth hOff => ?register, fun hWidth hFrom hBelow => ?byte⟩,
    fun s w hInit hPending hTainted hTurns => ?completion⟩
  case register =>
    rw [eq_writeAccess hValue hWidth hOff, hostAccess_writeAccess_busy hr hs]
    exact ⟨rfl, writeReg_keeps_busy hs r _⟩
  case byte =>
    rw [hostAccess_byte_busy hValue hWidth hFrom hBelow hs]
    exact ⟨hazard_eq_of_draws rfl, hs⟩
  case completion =>
    have hStep : step s = .next (completeTainted s) :=
      (step_eq_engineStep (engineEnabled_of_busy (busy_of_pending hPending)) hTurns).trans
        (engineStep_eq_completeTainted hInit hPending hTainted)
    exact ⟨completeTainted s, hStep, rfl, by simp, code_ofCode _, fun i => tabulate_getElem 64 _ i.val i.isLt, fun _ => rfl⟩

end Sys2Proof.Machine
end
